-- ==== Sys2Proof/Word.lean ====
section
/-! DEFINITION. The byte, the identifier word and the plainest things done with them
(spec 00_scope.md R9 to R11: bit 0 is the least significant bit, every value is unsigned). -/

namespace Sys2Proof

/-- One target register, one byte on the wire (R10). -/
abbrev Byte := BitVec 8

/-- The 32-bit identifier word of a CAN frame (R10, R161). -/
abbrev Id32 := BitVec 32

/-- `zeros n` of R10: n bytes of 0x00. -/
def zeros (n : Nat) : List Byte := List.replicate n 0

end Sys2Proof
end

