-- ==== Sys2Proof/Config.lean ====
section
/-! DEFINITION. What an implementation fixes and what the spec leaves free: the value types the parameters
are made of, the configuration record `Cfg` of 00_scope.md R8 (plain data; State carries it and no step
changes it), and the free values, which are opaque constants. The default instance of `Cfg` is
`Sys2Proof.Machine.defaultCfg`; the constraints on a legal instance are `Cfg.wf` (WellFormed.lean). -/

namespace Sys2Proof

/-- The six operating modes of the target (R35, R42). -/
inductive OperatingMode where
  | normal
  | sleep
  | loopback
  | listenOnly
  | config
  | powerUp
  deriving DecidableEq, Repr

/-- The five resolved timing parameters (R24, R42); the width of `uint` is not stated, so naturals. -/
structure TimingParameters where
  prescaler : Nat
  propSeg   : Nat
  phaseSeg1 : Nat
  phaseSeg2 : Nat
  sjw       : Nat
  deriving DecidableEq, Repr

/-- One row of the timing table: the two keys (Hz, bit/s) and the tuple (R42, R202). -/
structure TimingRow where
  osc     : Nat
  bitrate : Nat
  tp      : TimingParameters
  deriving DecidableEq, Repr

/-- The open parameters of R8, one field each. Fields fixed by MF (opcodes, buffer bases, the mode
mask and so on) are constants of Machine/Parameters.lean. -/
structure Cfg where
  /-- `CTRL_ADDR` (D13). -/
  ctrlAddr : Nat
  /-- `STAT_ADDR` (D13). -/
  statAddr : Nat
  /-- `FILTER_BASE[0..5]` (D21). -/
  filter0 : Nat
  filter1 : Nat
  filter2 : Nat
  filter3 : Nat
  filter4 : Nat
  filter5 : Nat
  /-- `MODE_PATTERN` of each mode (D14). -/
  patNormal     : Byte
  patSleep      : Byte
  patLoopback   : Byte
  patListenOnly : Byte
  patConfig     : Byte
  patPowerUp    : Byte
  /-- `ICOD_MASK`, `ICOD_SHIFT` (D16). -/
  icodMask  : Byte
  icodShift : Nat
  /-- The eight flag masks of INTE and INTF (D17). -/
  rx0if : Byte
  rx1if : Byte
  tx0if : Byte
  tx1if : Byte
  tx2if : Byte
  errif : Byte
  wakif : Byte
  merrf : Byte
  /-- `RTR_BYTE` (D24): 0 or 5. -/
  rtrByte : Nat
  /-- `TimingTable` (D20). -/
  timingTable : List TimingRow
  /-- `ModeGrant` (D15) as plain data: the (current, requested) pairs the target denies. -/
  denied : List (OperatingMode × OperatingMode)
  deriving DecidableEq, Repr

/-- FREE VALUE `ResetImage(a)` (R41, R343, D10): what register `a` holds after target power-up or RESET.
No body: nothing may be assumed of it. One image serves both resets, as D10 says. -/
opaque Config.resetImage : Nat → Byte

/-- FREE VALUE `draw byte` (R12, R63, R148): the n-th byte drawn since reset. No body. -/
opaque Config.freeByte : Nat → Byte

end Sys2Proof
end

