-- ==== Sys2Proof/Syntax.lean ====
section
/-! DEFINITION. The wire instructions (30_encoding.md R97, R103), one constructor per row of
spec/opcode_table.json. An address or a count is a natural number: WellFormed.lean bounds it, and the
encoder puts the address in one byte whose bit 7 is 0 (R96). -/

namespace Sys2Proof

inductive Instr where
  /-- RESET, format Z (R132). -/
  | reset
  /-- READ start, count, format R (R134). -/
  | read (start count : Nat)
  /-- WRITE start, data, format W (R137). -/
  | write (start : Nat) (data : List Byte)
  /-- BITMOD address, mask, value, format M (R140). -/
  | bitmod (address : Nat) (mask value : Byte)
  /-- RTS of transmit buffer 0, format Z (R143). -/
  | rtsTxb0
  /-- RTS of transmit buffer 1, format Z (R143). -/
  | rtsTxb1
  /-- RTS of transmit buffer 2, format Z (R143). -/
  | rtsTxb2
  /-- RTS of all three transmit buffers, format Z (R143). -/
  | rtsAll
  deriving DecidableEq, Repr

end Sys2Proof
end

