-- ==== Sys2Proof/Machine/Port.lean ====
section
/-! DEFINITION. The value types of the two ports (10_state.md R30 to R33, R42): frames and headers, the host
commands and their outcomes, what the transport may do, and what the environment may do. -/

namespace Sys2Proof.Machine

/-- A CAN frame (R160): the identifier word laid out by R161, and 0 to 8 payload bytes. -/
structure CanFrame where
  identifier : Id32
  data       : List Byte
  deriving DecidableEq, Repr

/-- The six header bytes of a buffer block, h[0] to h[5], under the names of R56. -/
structure Header where
  ctrl    : Byte
  idHigh  : Byte
  idLow   : Byte
  eidHigh : Byte
  eidLow  : Byte
  dlc     : Byte
  deriving DecidableEq, Repr

/-- The two receive buffers. -/
inductive RxBuf where
  | rxb0
  | rxb1
  deriving DecidableEq, Repr

/-- The three transmit buffers. -/
inductive TxBuf where
  | txb0
  | txb1
  | txb2
  deriving DecidableEq, Repr

/-- The operand of `rts`: a buffer number or ALL (R104). -/
inductive RtsOperand where
  | buffer (n : Nat)
  | all
  deriving DecidableEq, Repr

/-- The three configuration bytes of `packCNF` (R207). -/
structure CnfBytes where
  cnf1 : Byte
  cnf2 : Byte
  cnf3 : Byte
  deriving DecidableEq, Repr

/-- The host commands (R31). Buffer numbers, addresses and counts are naturals: R131, R300 say which are refused. -/
inductive Command where
  | reset
  | readRegisters (start count : Nat)
  | writeRegister (start : Nat) (bytes : List Byte)
  | modifyRegister (address : Nat) (mask value : Byte)
  | rts (sel : RtsOperand)
  | resolve (osc bitrate : Nat)
  | packCNF (tp : TimingParameters)
  | decodeHeader (h : Header)
  | encodeFrame (f : CanFrame)
  | setMode (m : OperatingMode)
  | status
  | construct (osc bitrate : Nat)
  | reinit
  | receive (n : Nat)
  | clearRxFlag (n : Nat)
  | poll
  | send (f : CanFrame) (n : Nat)
  deriving DecidableEq, Repr

/-- What a command that completes returns (the result column of R31). -/
inductive CmdResult where
  | unit
  | bytes (b : List Byte)
  | timing (tp : TimingParameters)
  | cnf (c : CnfBytes)
  | header (id : Id32) (dlc : Nat)
  | encoded (h : Header) (payload : List Byte)
  | status (icod : Byte) (mode : OperatingMode)
  | frame (f : CanFrame)
  /-- `None` of `poll` (R266). -/
  | noFrame
  deriving DecidableEq, Repr

/-- The errors of MF section 7 with the value recorded with each (R291). -/
inductive CmdError where
  | unsupportedTiming (osc bitrate : Nat)
  | transportFailure (i : Instr)
  | dlcRange (dlc : Nat)
  | unknownMode (status : Byte)
  deriving DecidableEq, Repr

/-- The refusal reasons of R300. -/
inductive RefuseReason where
  | badAddress
  | badLength
  | badBuffer
  | badFrame
  | badTiming
  | notConstructed
  deriving DecidableEq, Repr

/-- What the host port answers to a command (R13, R42). -/
inductive CmdOutcome where
  | ok (r : CmdResult)
  | error (e : CmdError)
  | refused (r : RefuseReason)
  deriving DecidableEq, Repr

/-- What happens at the host's side: a command is presented, or one of the two power-ups of R340 happens. -/
inductive HostEvent where
  | command (c : Command)
  | blockPowerUp
  | targetPowerUp
  deriving DecidableEq, Repr

/-- What the transport does with one exchange (R32). -/
inductive Verdict where
  /-- All bytes are exchanged. -/
  | ok
  /-- The exchange fails; the target has received the first `k` bytes, at most all of them (R145). -/
  | fail (k : Nat)
  /-- All bytes reach the target, and the transport hands back `n` bytes (D44). -/
  | returns (n : Nat)
  deriving DecidableEq, Repr

/-- What ENV may do in one step (R38, R144): each constructor changes only registers that are volatile there. -/
inductive EnvStep where
  /-- Set bits of INTF other than the two receive flags. -/
  | raiseFlags (mask : Byte)
  /-- Fill a receive buffer with a frame's block bytes and set its full flag, while that flag is clear. -/
  | fillRx (n : RxBuf) (block : List Byte)
  | errorCounter0 (v : Byte)
  | errorCounter1 (v : Byte)
  | errorFlags (v : Byte)
  /-- Change the status register's bits outside the mode field. -/
  | statusBits (v : Byte)
  /-- Change the control byte of a transmit block. -/
  | txControl (n : TxBuf) (v : Byte)
  /-- A requested transmission has gone out: the request is over, the control byte changes, the transmit flag is set. -/
  | txDone (n : TxBuf) (v : Byte)
  deriving DecidableEq, Repr

/-- One chip-select window as the wire shows it (R104): bytes out and bytes in. What it holds for a failed exchange
is the model's choice (notes/assumptions/25.md). -/
structure Transaction where
  sent     : List Byte
  received : List Byte
  deriving DecidableEq, Repr

/-- What the sequencer does when the wire instructions of the command in progress have all been issued; the
response of the last one is at hand (R232 to R272). -/
inductive Finish where
  /-- Answer with no result. -/
  | unit
  /-- Answer with the response bytes. -/
  | bytes
  /-- Split the status byte (R236). -/
  | status
  /-- The fifth step of `construct` is done (R240). -/
  | construct
  /-- The fifth step of `reinit` is done (R248). -/
  | reinit
  /-- The flag byte of `poll` has been read (R266). -/
  | pollFlags
  /-- A header has been read (R262); `clear` is true inside `poll`. -/
  | header (n : RxBuf) (clear : Bool)
  /-- The payload of the frame with this identifier has been read. -/
  | payload (n : RxBuf) (id : Id32) (clear : Bool)
  /-- The flag of the frame's buffer has been cleared; answer with the frame. -/
  | frame (f : CanFrame)
  deriving DecidableEq, Repr

/-- The command in progress: the wire instructions still to be issued, in order, and what follows them. -/
structure Job where
  queue  : List Instr
  finish : Finish
  deriving DecidableEq, Repr

end Sys2Proof.Machine
end

