-- ==== Sys2Proof/Machine/Parameters.lean ====
section
/-! DEFINITION. The constants MF fixes (00_scope.md R8, status MF, derived or decided) and the default
instance of the open parameters, with the functions that read a parameter record. -/

namespace Sys2Proof.Machine

/-- `MODE_MASK`: the top three bits of the control and status registers. -/
def modeMask : Byte := 0xE0
/-- `INTE_ADDR`, `INTF_ADDR`, `EFLG_ADDR` (R55, R60). -/
def inteAddr : Nat := 0x2B
def intfAddr : Nat := 0x2C
def eflgAddr : Nat := 0x2D
/-- The two error counters (R55). -/
def errCnt0Addr : Nat := 0x1C
def errCnt1Addr : Nat := 0x1D
/-- CNF1, CNF2, CNF3 (R59, D18). -/
def cnf1Addr : Nat := 0x28
def cnf2Addr : Nat := 0x29
def cnf3Addr : Nat := 0x2A
/-- `HDR_LEN`, `BLOCK_LEN`, `MAX_DLC`. -/
def hdrLen : Nat := 6
def blockLen : Nat := 14
def maxDlc : Nat := 8
/-- `FILL`: the byte sent while READ data is clocked in (D4). -/
def fillByte : Byte := 0x00
/-- Registers in the target (R34, R50). -/
def regCount : Nat := 128

/-- The default instance (R8). The addresses, patterns, flag positions and filter bases are the spec's
defaults "from general knowledge, not in source" (PRESUMED, notes/assumptions/3.md); the table holds the
one row MF gives (R202). No statement rests on a default unless it says so. -/
def defaultCfg : Cfg where
  ctrlAddr := 0x0F
  statAddr := 0x0E
  filter0 := 0x00
  filter1 := 0x04
  filter2 := 0x08
  filter3 := 0x10
  filter4 := 0x14
  filter5 := 0x18
  patNormal := 0x00
  patSleep := 0x20
  patLoopback := 0x40
  patListenOnly := 0x60
  patConfig := 0x80
  patPowerUp := 0xE0
  icodMask := 0x0E
  icodShift := 1
  rx0if := 0x01
  rx1if := 0x02
  tx0if := 0x04
  tx1if := 0x08
  tx2if := 0x10
  errif := 0x20
  wakif := 0x40
  merrf := 0x80
  rtrByte := 0
  timingTable := [⟨8000000, 500000, ⟨1, 2, 3, 2, 1⟩⟩]
  denied := []

/-- `MODE_PATTERN(m)` (R231). -/
def modePattern (c : Cfg) : OperatingMode → Byte
  | .normal => c.patNormal
  | .sleep => c.patSleep
  | .loopback => c.patLoopback
  | .listenOnly => c.patListenOnly
  | .config => c.patConfig
  | .powerUp => c.patPowerUp

/-- The mode whose pattern is `p`, if there is one (R234, R236). -/
def modeOf (c : Cfg) (p : Byte) : Option OperatingMode :=
  if p = c.patNormal then some .normal
  else if p = c.patSleep then some .sleep
  else if p = c.patLoopback then some .loopback
  else if p = c.patListenOnly then some .listenOnly
  else if p = c.patConfig then some .config
  else if p = c.patPowerUp then some .powerUp
  else none

/-- `ModeGrant(cur, req)` (R234, D15). -/
def modeGrant (c : Cfg) (cur req : OperatingMode) : Bool :=
  !(c.denied.contains (cur, req))

/-- The six filter bases in index order (R53). -/
def filterBases (c : Cfg) : List Nat :=
  [c.filter0, c.filter1, c.filter2, c.filter3, c.filter4, c.filter5]

end Sys2Proof.Machine
end

