-- ==== Sys2Proof/Machine/RegMap.lean ====
section
/-! DEFINITION. The address map of the target register space (20_memory.md R52 to R63): which addresses
are filter bytes, which are write-protected, which are named. -/

namespace Sys2Proof.Machine

/-- `a` is one of the `len` addresses from `base` on. -/
def inBlock (base len a : Nat) : Bool := decide (base ≤ a) && decide (a < base + len)

/-- One of the 24 filter bytes (R53). -/
def isFilterByte (c : Cfg) (a : Nat) : Bool :=
  inBlock c.filter0 4 a || inBlock c.filter1 4 a || inBlock c.filter2 4 a ||
  inBlock c.filter3 4 a || inBlock c.filter4 4 a || inBlock c.filter5 4 a

/-- One of the 8 mask bytes 0x20..0x27 (R54). -/
def isMaskByte (a : Nat) : Bool := inBlock 0x20 8 a

/-- CNF1, CNF2 or CNF3 (R59). -/
def isBitTiming (a : Nat) : Bool := inBlock cnf1Addr 3 a

/-- A register of one of the five 14-byte buffer blocks (R56 to R58). -/
def isBufferByte (a : Nat) : Bool :=
  inBlock 0x30 blockLen a || inBlock 0x40 blockLen a || inBlock 0x50 blockLen a ||
  inBlock 0x60 blockLen a || inBlock 0x70 blockLen a

/-- A register the map names apart from the control and status registers and the filters. -/
def isFixedNamed (a : Nat) : Bool :=
  inBlock errCnt0Addr 2 a || isMaskByte a || isBitTiming a || inBlock inteAddr 3 a || isBufferByte a

/-- `PROTECTED(a)` (R62): the filter bytes, the mask bytes and the bit-timing registers. -/
def isProtected (c : Cfg) (a : Nat) : Bool := isFilterByte c a || isMaskByte a || isBitTiming a

/-- The map names the address (R52); the other addresses are the unnamed ones of R63. -/
def isNamed (c : Cfg) (a : Nat) : Bool :=
  isFilterByte c a || isFixedNamed a || decide (a = c.ctrlAddr) || decide (a = c.statAddr)

/-- What a register nothing has written since target power-up or RESET holds (R41, R342): the free
`ResetImage`, but for the mode bits of the status register, which show PowerUp. -/
def powerUpByte (c : Cfg) (a : Nat) : Byte :=
  if a = c.statAddr then (Config.resetImage a &&& ~~~modeMask) ||| (c.patPowerUp &&& modeMask)
  else Config.resetImage a

end Sys2Proof.Machine
end

