-- ==== Sys2Proof/WellFormed.lean ====
section
/-! DEFINITION. Well-formedness, each a Bool: of a wire instruction (R103), of the timing parameters for
packing (R208), of a frame for encoding (R175) and of the parameter record (the constraints of R8, R53,
R202, R231, R234, D13 to D24). -/

namespace Sys2Proof

/-- `WF(I)` of R103: the address is a 7-bit address and the access stays inside the register space. -/
def Instr.wf : Instr → Bool
  | .read a n => decide (a < 128) && decide (1 ≤ n) && decide (a + n ≤ 128)
  | .write a d => decide (a < 128) && decide (1 ≤ d.length) && decide (a + d.length ≤ 128)
  | .bitmod a _ _ => decide (a < 128)
  | .reset => true
  | .rtsTxb0 => true
  | .rtsTxb1 => true
  | .rtsTxb2 => true
  | .rtsAll => true

/-- `TimingWF(tp)` of R208: four fields in [1,8], sjw in [1,4] (90_conflicts.md C5). -/
def TimingParameters.wf (t : TimingParameters) : Bool :=
  decide (1 ≤ t.prescaler) && decide (t.prescaler ≤ 8) && decide (1 ≤ t.propSeg) && decide (t.propSeg ≤ 8) &&
  decide (1 ≤ t.phaseSeg1) && decide (t.phaseSeg1 ≤ 8) && decide (1 ≤ t.phaseSeg2) && decide (t.phaseSeg2 ≤ 8) &&
  decide (1 ≤ t.sjw) && decide (t.sjw ≤ 4)

/-- `FrameWF(f)` of R175: at most 8 data bytes, bit 29 clear, and bits 28..11 clear in a standard frame. -/
def Machine.CanFrame.wf (f : Machine.CanFrame) : Bool :=
  decide (f.data.length ≤ 8) && !(f.identifier.getLsbD 29) &&
  (f.identifier.getLsbD 31 || decide (f.identifier.extractLsb' 11 18 = 0))

/-- Exactly one bit of the byte is set. -/
def isSingleBit (b : Byte) : Bool := decide (b ≠ 0) && decide (b &&& (b - 1) = 0)

/-- Two 4-byte filters do not overlap (R53). -/
def filtersApart (x y : Nat) : Bool := decide (x + 4 ≤ y) || decide (y + 4 ≤ x)

/-- A register of the two that have no row in MF's map: inside the space and in no named group (D13). -/
def isSpareAddr (c : Cfg) (a : Nat) : Bool :=
  decide (a < 128) && !(Machine.isFilterByte c a) && !(Machine.isFixedNamed a)

/-- The constraints on the open parameters. -/
def Cfg.wf (c : Cfg) : Bool :=
  -- D13: the control and status registers
  decide (c.ctrlAddr ≠ c.statAddr) && isSpareAddr c c.ctrlAddr && isSpareAddr c c.statAddr &&
  -- R53: six filters of 4 bytes inside 0x00..0x1B, none overlapping another
  (Machine.filterBases c).all (fun b => decide (b + 4 ≤ 0x1C)) &&
  decide ((Machine.filterBases c).Pairwise (fun x y => filtersApart x y = true)) &&
  -- R231: six different patterns, each with zero low five bits
  decide ([c.patNormal, c.patSleep, c.patLoopback, c.patListenOnly, c.patConfig, c.patPowerUp].Nodup) &&
  [c.patNormal, c.patSleep, c.patLoopback, c.patListenOnly, c.patConfig, c.patPowerUp].all
    (fun p => decide (p &&& 0x1F = 0)) &&
  -- R8: the cause code lies outside the mode field
  decide (c.icodMask &&& Machine.modeMask = 0) &&
  -- U22: eight distinct single bits
  [c.rx0if, c.rx1if, c.tx0if, c.tx1if, c.tx2if, c.errif, c.wakif, c.merrf].all isSingleBit &&
  decide ([c.rx0if, c.rx1if, c.tx0if, c.tx1if, c.tx2if, c.errif, c.wakif, c.merrf].Nodup) &&
  -- R164: header byte 0 or 5
  (decide (c.rtrByte = 0) || decide (c.rtrByte = 5)) &&
  -- R202: MF's row comes first among the rows with its keys, and every row is in range
  decide ((c.timingTable.find? fun r => decide (r.osc = 8000000) && decide (r.bitrate = 500000)) =
    some ⟨8000000, 500000, ⟨1, 2, 3, 2, 1⟩⟩) &&
  c.timingTable.all (fun r => r.tp.wf) &&
  -- R234: Config is always granted
  c.denied.all (fun p => decide (p.2 ≠ OperatingMode.config))

end Sys2Proof
end

