-- ==== Sys2Proof/Decode.lean ====
section
/-! DEFINITION. The wire formats (30_encoding.md R90 to R103): the decoder `Dec`, total on any bytes and
rejecting by name, and after it the encoder `Enc`, both written from the tables of R92 to R98. Beside them,
how a word of spec/opcode_table.json is laid out as the bytes of one transaction. -/

namespace Sys2Proof

/-- The opcodes of R97. -/
def opReset : Byte := 0xC0
def opRead : Byte := 0x03
def opWrite : Byte := 0x02
def opBitmod : Byte := 0x05
def opRts0 : Byte := 0x81
def opRts1 : Byte := 0x82
def opRts2 : Byte := 0x84
def opRtsAll : Byte := 0x87

/-- Why a transaction is no instruction (R100, R101). -/
inductive DecodeError where
  /-- The empty transaction. -/
  | empty
  /-- A first byte outside the eight of R97. -/
  | reservedOpcode (b : Byte)
  /-- RESET or RTS followed by more bytes. -/
  | trailingBytes
  /-- READ or WRITE with fewer than 3 bytes. -/
  | noData
  /-- BITMOD with fewer or more than 4 bytes. -/
  | bitmodLength
  /-- An address byte with bit 7 set. -/
  | addressBit7
  /-- A READ or WRITE whose address pointer would pass 0x7F. -/
  | pastEnd
  deriving DecidableEq, Repr

/-- Format Z (R92): the opcode is the whole transaction. -/
def decodeZ (i : Instr) (rest : List Byte) : Except DecodeError Instr :=
  match rest with
  | [] => .ok i
  | _ :: _ => .error .trailingBytes

/-- Format R (R93): the count is the number of filler bytes, whatever they hold (R96, R103). -/
def decodeR (rest : List Byte) : Except DecodeError Instr :=
  match rest with
  | a :: f :: fs =>
    if a.toNat ≥ 128 then .error .addressBit7
    else if a.toNat + (f :: fs).length > 128 then .error .pastEnd
    else .ok (.read a.toNat (f :: fs).length)
  | _ => .error .noData

/-- Format W (R94). -/
def decodeW (rest : List Byte) : Except DecodeError Instr :=
  match rest with
  | a :: d :: ds =>
    if a.toNat ≥ 128 then .error .addressBit7
    else if a.toNat + (d :: ds).length > 128 then .error .pastEnd
    else .ok (.write a.toNat (d :: ds))
  | _ => .error .noData

/-- Format M (R95). -/
def decodeM (rest : List Byte) : Except DecodeError Instr :=
  match rest with
  | [a, m, v] => if a.toNat ≥ 128 then .error .addressBit7 else .ok (.bitmod a.toNat m v)
  | _ => .error .bitmodLength

/-- `Dec` of R103: the instruction of a transaction, or why it is none. -/
def decode (t : List Byte) : Except DecodeError Instr :=
  match t with
  | [] => .error .empty
  | op :: rest =>
    if op = opReset then decodeZ .reset rest
    else if op = opRead then decodeR rest
    else if op = opWrite then decodeW rest
    else if op = opBitmod then decodeM rest
    else if op = opRts0 then decodeZ .rtsTxb0 rest
    else if op = opRts1 then decodeZ .rtsTxb1 rest
    else if op = opRts2 then decodeZ .rtsTxb2 rest
    else if op = opRtsAll then decodeZ .rtsAll rest
    else .error (.reservedOpcode op)

/-- `Enc` of R103. -/
def encode : Instr → List Byte
  | .reset => [opReset]
  | .read a n => [opRead, BitVec.ofNat 8 a] ++ List.replicate n Machine.fillByte
  | .write a d => [opWrite, BitVec.ofNat 8 a] ++ d
  | .bitmod a m v => [opBitmod, BitVec.ofNat 8 a, m, v]
  | .rtsTxb0 => [opRts0]
  | .rtsTxb1 => [opRts1]
  | .rtsTxb2 => [opRts2]
  | .rtsAll => [opRtsAll]

/-- The bytes of an instruction of `n` bytes whose bits are `w`: the first byte is bits 7..0. -/
def wordBytes : Nat → Nat → List Byte
  | 0, _ => []
  | n + 1, w => BitVec.ofNat 8 w :: wordBytes n (w / 256)

/-- The fewest bytes a transaction with this opcode has (R91). -/
def minBytes (op : Byte) : Nat :=
  if op = opRead then 3 else if op = opWrite then 3 else if op = opBitmod then 4 else 1

/-- A word of the opcode table as one transaction: its own bytes, and zero bytes up to the shortest
transaction of its opcode (the table gives READ and WRITE no length, since it varies). -/
def tableBytes (nbits w : Nat) : List Byte :=
  let v := w % 2 ^ nbits
  wordBytes (max ((nbits + 7) / 8) (minBytes (BitVec.ofNat 8 v))) v

/-- The instruction the decoder reads from a word of the opcode table. -/
def decodeTableWord (nbits w : Nat) : Option Instr :=
  match decode (tableBytes nbits w) with
  | .ok i => some i
  | .error _ => none

end Sys2Proof
end

