-- ==== Sys2Proof/Machine/State.lean ====
section
/-! DEFINITION. The machine's state as plain data, the reasons it stops, and the state after reset.
Block fields are `B.*` of 10_state.md R22; target fields are R34 to R36, R39; the inputs are what the three
agents outside (HOST, SPI, ENV of R7) will do, oldest first; the observers are what they have been shown. -/

namespace Sys2Proof.Machine

/-- Who may stop a run with a fault. Both are internal to the sequencer, no run from reset reaches one
(see `Sys2Proof.Safety.MachineInv`), and both are SAFE: the model stops where the spec says nothing can happen. -/
inductive Fault where
  /-- `reinit` on a block marked constructed whose timing parameters have no value: R40 says reading
  `B.TP` then cannot happen. Raised by accepting `reinit`. Safe. -/
  | unresolvedTiming
  /-- The bytes at hand are not as many as the command's last READ asks for, which an exchange that
  succeeded cannot leave (R32). Raised by finishing a command. Safe. -/
  | responseShape
  deriving DecidableEq, Repr

/-- Why a run is refused. Each is SAFE: the spec gives the behaviour no meaning and says the model refuses
it, so no claim is proved through it. -/
inductive Refusal where
  /-- An instruction that has no meaning yet; raised by no arm of this model. Safe. -/
  | notModelled (mnemonic : String)
  /-- `issue` of an instruction whose address operand exceeds 0x7F (R131). Raised by every meaning with an address. Safe. -/
  | badAddress
  /-- `issue` of an empty READ or WRITE, or one past 0x7F (R131). Raised by READ and WRITE. Safe. -/
  | badLength
  /-- `InvalidTransaction` (R147, R301): bytes that are no instruction. Raised by a step that finds such
  bytes on the wire, and by the byte-serial target decoder (R148). Safe. -/
  | invalidTransaction (why : DecodeError)
  /-- A WRITE or BITMOD aimed at `STAT_ADDR`, whose effect is unspecified (R61, R301). Raised by the register store. Safe. -/
  | statusWrite
  /-- A WRITE or BITMOD aimed at an address the map does not name (R63, R301). Raised by the register store. Safe. -/
  | unnamedWrite (a : Nat)
  /-- A store that leaves a pattern of no mode in the control register's mode field (R234, R301). Raised by the mode request. Safe. -/
  | noSuchMode (p : Byte)
  deriving DecidableEq, Repr

/-- A mark on the run (R13): it belongs to the run, not to the outcome the host sees. -/
inductive RunMark where
  /-- `ProtectedWrite` (R62, R302): a store to a protected register outside Config mode was discarded. -/
  | protectedWrite (a : Nat)
  deriving DecidableEq, Repr

/-- The chip-select line (R27). -/
inductive ChipSelect where
  | released
  | asserted
  deriving DecidableEq, Repr

/-- The target's transaction decoder inside a chip-select window (R36, R148): bytes received so far, latched
opcode, address pointer, BITMOD mask. -/
structure Window where
  k    : Nat
  op   : Byte
  ap   : Nat
  mask : Byte
  deriving DecidableEq, Repr

/-- Which transmit buffers are requested and not yet sent (R39, R144). -/
structure TxRequests where
  txb0 : Bool
  txb1 : Bool
  txb2 : Bool
  deriving DecidableEq, Repr

/-- Memory: (address, byte) pairs, addresses strictly rising, one entry for each register written since
target power-up or RESET. An unlisted address has no entry and so no value of its own: the register then
holds `powerUpByte` (notes/assumptions/4.md). -/
abbrev Memory := List Host.Cell

structure State where
  /-- The parameters (R8); no step changes them. -/
  cfg : Cfg
  -- BLOCK (R22)
  /-- `B.CONSTRUCTED`. -/
  constructed : Bool
  /-- `B.TP`; none is the spec's "no value". -/
  tp : Option TimingParameters
  /-- `B.OSC`; none is the spec's "no value". -/
  osc : Option Nat
  /-- `B.BITRATE`; none is the spec's "no value". -/
  bitrate : Option Nat
  /-- `B.NEEDS_REINIT`. -/
  needsReinit : Bool
  /-- `B.CS`. -/
  cs : ChipSelect
  /-- The command in progress (R30, R341). -/
  job : Option Job
  /-- The bytes `tx` offered to the SPI port and not yet exchanged (R28). -/
  wire : Option (List Byte)
  /-- What the `issue` just done returned (R130): the block's next move takes it and keeps none of it (R28). -/
  response : List Byte
  -- TARGET
  /-- `REG` (R34). -/
  mem : Memory
  /-- `T.MODE` (R35). -/
  mode : OperatingMode
  /-- The transaction decoder, inside a chip-select window only (R36). -/
  window : Option Window
  /-- Requested transmissions (R39, R144). -/
  requested : TxRequests
  -- INPUTS: what the agents outside will do, oldest first
  /-- HOST: the commands it will present and the power-ups, in order (R7, R340). -/
  host : List HostEvent
  /-- SPI: what the transport does with the coming exchanges; none listed means it carries them (R32). -/
  spi : List Verdict
  /-- ENV: the steps it takes before each coming byte on the wire; none listed means none (R38, R76). -/
  env : List (List EnvStep)
  -- OBSERVERS
  /-- The outcomes delivered on the host port, oldest first (R30). -/
  outcomes : List CmdOutcome
  /-- The transactions the SPI port has carried, oldest first (R104); of a failed one the bytes that reached the
  target (notes/assumptions/25.md). -/
  trace : List Transaction
  /-- The marks on the run, oldest first (R13). -/
  marks : List RunMark
  /-- How many free bytes have been drawn (the model's own). -/
  draws : Nat
  deriving DecidableEq, Repr

/-- Block power-up and target power-up (R341, R342): an unconstructed block, chip-select released, the target
in PowerUp with every register at its unspecified image, nothing requested; no inputs and nothing observed.
The parameters are the default instance. -/
def State.reset : State where
  cfg := defaultCfg
  constructed := false
  tp := none
  osc := none
  bitrate := none
  needsReinit := false
  cs := .released
  job := none
  wire := none
  response := []
  mem := []
  mode := .powerUp
  window := none
  requested := ⟨false, false, false⟩
  host := []
  spi := []
  env := []
  outcomes := []
  trace := []
  marks := []
  draws := 0

end Sys2Proof.Machine
end

