-- ==== Sys2Proof/Machine/Codec.lean ====
section
/-! DEFINITION. The Frame Codec (41_frame_codec.md): `decodeHeader` (R166) and `encodeFrame` (R176), pure. -/

namespace Sys2Proof.Machine

/-- `RTR_BIT` (R164). -/
def rtrBit : Nat := 6

/-- h[i]. -/
def headerByte (h : Header) (i : Nat) : Byte :=
  match i with
  | 0 => h.ctrl
  | 1 => h.idHigh
  | 2 => h.idLow
  | 3 => h.eidHigh
  | 4 => h.eidLow
  | _ => h.dlc

/-- h[i] <- h[i] | b. -/
def headerOr (h : Header) (i : Nat) (b : Byte) : Header :=
  match i with
  | 0 => { h with ctrl := h.ctrl ||| b }
  | 1 => { h with idHigh := h.idHigh ||| b }
  | 2 => { h with idLow := h.idLow ||| b }
  | 3 => { h with eidHigh := h.eidHigh ||| b }
  | 4 => { h with eidLow := h.eidLow ||| b }
  | _ => { h with dlc := h.dlc ||| b }

/-- The header as bytes h[0..5], in ascending register order (R56). -/
def headerBytes (h : Header) : List Byte := [h.ctrl, h.idHigh, h.idLow, h.eidHigh, h.eidLow, h.dlc]

/-- The header that six bytes are; no other number of bytes is one. -/
def headerOf (b : List Byte) : Option Header :=
  match b with
  | [h0, h1, h2, h3, h4, h5] => some ⟨h0, h1, h2, h3, h4, h5⟩
  | _ => none

/-- `SID = (h[1] << 3) | (h[2] >> 5)` in 32 bits (R163). -/
def headerSid (h : Header) : Id32 := (h.idHigh.zeroExtend 32 <<< 3) ||| (h.idLow.zeroExtend 32 >>> 5)

/-- The extended-marker, h[2][3]. -/
def headerExt (h : Header) : Bool := h.idLow.getLsbD 3

/-- The identifier word without its remote-request marker (R165, R166). -/
def headerId (h : Header) : Id32 :=
  if headerExt h then
    ((headerSid h <<< 18) ||| ((h.idLow &&& 0x03).zeroExtend 32 <<< 16) |||
      (h.eidHigh.zeroExtend 32 <<< 8) ||| h.eidLow.zeroExtend 32) ||| 0x80000000
  else headerSid h

/-- `decodeHeader` (R166): the identifier word and the data length, or the DLC 9..15 of the protocol violation. -/
def decodeHeader (c : Cfg) (h : Header) : Except CmdError (Id32 × Nat) :=
  let id := if (headerByte h c.rtrByte).getLsbD rtrBit then headerId h ||| 0x40000000 else headerId h
  let dlc := (h.dlc &&& 0x0F).toNat
  if dlc > maxDlc then .error (.dlcRange dlc) else .ok (id, dlc)

/-- The 11 bits of the base identifier of a frame (R176). -/
def frameSid (id : Id32) : BitVec 11 := if id.getLsbD 31 then id.extractLsb' 18 11 else id.extractLsb' 0 11

/-- The header of a frame before the remote-request flag is placed (R176, R177: every other bit is 0). -/
def plainHeader (f : CanFrame) : Header :=
  let id := f.identifier
  let sid := frameSid id
  let ext := id.getLsbD 31
  { ctrl := 0x00
    idHigh := sid.extractLsb' 3 8
    idLow := ((sid.extractLsb' 0 3).zeroExtend 8 <<< 5) ||| ((if ext then 0x08 else 0x00) : Byte) |||
      (if ext then (id.extractLsb' 16 2).zeroExtend 8 else 0x00)
    eidHigh := if ext then id.extractLsb' 8 8 else 0x00
    eidLow := if ext then id.extractLsb' 0 8 else 0x00
    dlc := BitVec.ofNat 8 f.data.length }

/-- `encodeFrame` (R176): the header and the payload; none is `BadFrame` (R175). -/
def encodeFrame (c : Cfg) (f : CanFrame) : Option (Header × List Byte) :=
  if f.wf then
    some (headerOr (plainHeader f) c.rtrByte (if f.identifier.getLsbD 30 then 0x40 else 0x00), f.data)
  else none

/-- `canon(h)` of R180: the header with the bits the decoder ignores cleared, for the flag byte of the
configuration. -/
def canonHeader (c : Cfg) (h : Header) : Header :=
  headerOr
    { ctrl := 0x00
      idHigh := h.idHigh
      idLow := h.idLow &&& (if headerExt h then 0xEB else 0xE0)
      eidHigh := if headerExt h then h.eidHigh else 0x00
      eidLow := if headerExt h then h.eidLow else 0x00
      dlc := h.dlc &&& 0x0F }
    c.rtrByte (headerByte h c.rtrByte &&& 0x40)

end Sys2Proof.Machine
end

