-- ==== Sys2Proof/Machine/Flags.lean ====
section
/-! DEFINITION. The flag and field computations: the bit-modify law, the mode field of a store to the control
register, the interrupt flags (R37, R60, R304) and the two fields of the status register (R236). -/

namespace Sys2Proof.Machine

/-- `(old & ~mask) | (value & mask)` (R11, R141). -/
def bitModify (old mask value : Byte) : Byte := (old &&& ~~~mask) ||| (value &&& mask)

/-- The mode field a BITMOD leaves in a register, `bitModify old mask value & MODE_MASK`. Where the mask
covers the whole field the old value plays no part, and it is not looked at. -/
def modeFieldAfter (old mask value : Byte) : Byte :=
  if mask &&& modeMask = modeMask then value &&& modeMask else bitModify old mask value &&& modeMask

/-- The full flag of a receive buffer (R264, R304). -/
def rxFlag (c : Cfg) : RxBuf → Byte
  | .rxb0 => c.rx0if
  | .rxb1 => c.rx1if

/-- The empty flag of a transmit buffer (R304). -/
def txFlag (c : Cfg) : TxBuf → Byte
  | .txb0 => c.tx0if
  | .txb1 => c.tx1if
  | .txb2 => c.tx2if

/-- Both receive flags. -/
def rxFlags (c : Cfg) : Byte := c.rx0if ||| c.rx1if

/-- A source is pending while its bit is 1 (R305). -/
def flagSet (flags mask : Byte) : Bool := decide (flags &&& mask ≠ 0)

/-- `INTE_DEFAULT`: receive-buffer-full twice, error, message-error (R244). -/
def inteDefault (c : Cfg) : Byte := c.rx0if ||| c.rx1if ||| c.errif ||| c.merrf

/-- The interrupt-cause code of a status byte (R236). -/
def causeCode (c : Cfg) (s : Byte) : Byte := (s &&& c.icodMask) >>> c.icodShift

/-- The mode of a status byte, if its mode bits are a mode's pattern (R236). -/
def statusMode (c : Cfg) (s : Byte) : Option OperatingMode := modeOf c (s &&& modeMask)

/-- The status byte with its mode field showing `m` and its other bits kept (R234). -/
def showMode (c : Cfg) (s : Byte) (m : OperatingMode) : Byte := (s &&& ~~~modeMask) ||| modePattern c m

end Sys2Proof.Machine
end

