-- ==== Sys2Proof/Machine/Operands.lean ====
section
/-! DEFINITION. The operand forms: the checks made before any wire activity (R131, R300), the buffer
operands and the addresses they stand for (R56), and which commands the construction gate stops (R23). -/

namespace Sys2Proof.Machine

/-- What can be wrong with the operands of a wire instruction (R131). -/
inductive OperandProblem where
  | address
  | length
  deriving DecidableEq, Repr

/-- The problem as the host port's refusal reason (R300). -/
def problemReason : OperandProblem → RefuseReason
  | .address => .badAddress
  | .length => .badLength

/-- The problem as a refusal of the run. -/
def problemRefusal : OperandProblem → Refusal
  | .address => .badAddress
  | .length => .badLength

/-- The operand check of a wire instruction (R131), first hit first (R308). -/
def operandCheck : Instr → Option OperandProblem
  | .read a n =>
    if a ≥ regCount then some .address else if n = 0 ∨ a + n > regCount then some .length else none
  | .write a d =>
    if a ≥ regCount then some .address
    else if d.length = 0 ∨ a + d.length > regCount then some .length else none
  | .bitmod a _ _ => if a ≥ regCount then some .address else none
  | .reset => none
  | .rtsTxb0 => none
  | .rtsTxb1 => none
  | .rtsTxb2 => none
  | .rtsAll => none

/-- The receive buffer of a buffer operand (R262); none is `BadBuffer`. -/
def rxBufOf (n : Nat) : Option RxBuf :=
  if n = 0 then some .rxb0 else if n = 1 then some .rxb1 else none

/-- The transmit buffer of a buffer operand (R272); none is `BadBuffer`. -/
def txBufOf (n : Nat) : Option TxBuf :=
  if n = 0 then some .txb0 else if n = 1 then some .txb1 else if n = 2 then some .txb2 else none

/-- `RXB_BASE[n]`. -/
def rxBase : RxBuf → Nat
  | .rxb0 => 0x60
  | .rxb1 => 0x70

/-- `TXB_BASE[n]`. -/
def txBase : TxBuf → Nat
  | .txb0 => 0x30
  | .txb1 => 0x40
  | .txb2 => 0x50

/-- `MASK_BASE[0]` and `MASK_BASE[1]` (R54). -/
def maskBase0 : Nat := 0x20
def maskBase1 : Nat := 0x24

/-- The RTS instruction of one transmit buffer (R98). -/
def rtsInstr : TxBuf → Instr
  | .txb0 => .rtsTxb0
  | .txb1 => .rtsTxb1
  | .txb2 => .rtsTxb2

/-- The RTS instruction of a selection operand (R143); none is `BadBuffer`. -/
def rtsOperand : RtsOperand → Option Instr
  | .buffer n => (txBufOf n).map rtsInstr
  | .all => some .rtsAll

/-- The commands that run before construction: `construct` and the four pure functions (R23). -/
def runsUnconstructed : Command → Bool
  | .construct _ _ => true
  | .resolve _ _ => true
  | .packCNF _ => true
  | .decodeHeader _ => true
  | .encodeFrame _ => true
  | .reset => false
  | .readRegisters _ _ => false
  | .writeRegister _ _ => false
  | .modifyRegister _ _ _ => false
  | .rts _ => false
  | .setMode _ => false
  | .status => false
  | .reinit => false
  | .receive _ => false
  | .clearRxFlag _ => false
  | .poll => false
  | .send _ _ => false

end Sys2Proof.Machine
end

