-- ==== Sys2Proof/Machine/Timing.lean ====
section
/-! DEFINITION. The Timing Resolver (42_timing_resolver.md): `resolve` (R201) and `packCNF` (R207), pure. -/

namespace Sys2Proof.Machine

/-- `resolve` (R201): the tuple of the first row with both keys; none is UnsupportedTiming. -/
def resolve (table : List TimingRow) (osc bitrate : Nat) : Option TimingParameters :=
  match table with
  | [] => none
  | r :: rs => if r.osc = osc ∧ r.bitrate = bitrate then some r.tp else resolve rs osc bitrate

/-- The three bytes of R207. -/
def cnfBytes (t : TimingParameters) : CnfBytes where
  cnf1 := 0x40 ||| BitVec.ofNat 8 (t.phaseSeg2 - 1)
  cnf2 := 0x80 ||| (BitVec.ofNat 8 (t.phaseSeg1 - 1) <<< 3) ||| BitVec.ofNat 8 (t.propSeg - 1)
  cnf3 := (BitVec.ofNat 8 (t.sjw - 1) <<< 6) ||| BitVec.ofNat 8 (t.prescaler - 1)

/-- `packCNF` (R207, R208); none is `BadTiming`. -/
def packCNF (t : TimingParameters) : Option CnfBytes := if t.wf then some (cnfBytes t) else none

/-- The inverse of `packCNF` on well-formed tuples (R211). -/
def unpackCNF (c : CnfBytes) : TimingParameters where
  prescaler := (c.cnf3 &&& 0x07).toNat + 1
  propSeg := (c.cnf2 &&& 0x07).toNat + 1
  phaseSeg1 := ((c.cnf2 >>> 3) &&& 0x07).toNat + 1
  phaseSeg2 := (c.cnf1 &&& 0x07).toNat + 1
  sjw := (c.cnf3 >>> 6).toNat + 1

end Sys2Proof.Machine
end

