-- ==== Sys2Proof/Machine/Ops.lean ====
section
/-! DEFINITION. The shared operations: memory, the target's registers, the mode request, the resets, the
free bytes, the marks, the host port, and the one way an error is raised (R296). -/

namespace Sys2Proof.Machine

/-! ### Named updates of one field -/

def State.setWindow (s : State) (w : Option Window) : State := { s with window := w }
def State.setWire (s : State) (tx : Option (List Byte)) : State := { s with wire := tx }
def State.setResponse (s : State) (r : List Byte) : State := { s with response := r }
def State.setHost (s : State) (h : List HostEvent) : State := { s with host := h }
def State.setSpi (s : State) (v : List Verdict) : State := { s with spi := v }
def State.setEnv (s : State) (e : List (List EnvStep)) : State := { s with env := e }
def State.setRequested (s : State) (r : TxRequests) : State := { s with requested := r }
def State.setJob (s : State) (j : Option Job) : State := { s with job := j }

/-! ### Memory -/

/-- The byte listed at an address, if one is. -/
def Memory.read? : Memory → Nat → Option Byte
  | [], _ => none
  | (b, v) :: m, a => if b = a then some v else Memory.read? m a

/-- The memory with `v` listed at `a`, every other entry kept, in rising order. -/
def Memory.write : Memory → Nat → Byte → Memory
  | [], a, v => [(a, v)]
  | (b, w) :: m, a, v =>
    if a < b then (a, v) :: (b, w) :: m
    else if a = b then (a, v) :: m
    else (b, w) :: Memory.write m a v

/-- Every address listed is above `lo` or equal to it, inside the register space, and they rise strictly. -/
def Memory.rising : Nat → Memory → Bool
  | _, [] => true
  | lo, (a, _) :: m => decide (lo ≤ a) && decide (a < regCount) && Memory.rising (a + 1) m

/-- The canonical form: strictly rising addresses, all inside the 128 registers (R50). -/
def Memory.wf (m : Memory) : Bool := Memory.rising 0 m

/-! ### Registers of the target -/

/-- `REG[a]` (R34): the byte last written, else what power-up or RESET left. -/
def State.reg (s : State) (a : Nat) : Byte :=
  match Memory.read? s.mem a with
  | some v => v
  | none => powerUpByte s.cfg a

/-- `REG[a] <- v`, the store alone. -/
def State.setReg (s : State) (a : Nat) (v : Byte) : State := { s with mem := Memory.write s.mem a v }

/-- `draw byte` (R12): a free byte and the state that has used it. -/
def drawByte (s : State) : Byte × State := (Config.freeByte s.draws, { s with draws := s.draws + 1 })

/-- One byte of `MemRead` (R66): the register at the moment it is sampled; an unnamed address gives
`draw byte` (R63). No register changes (R69). -/
def sampleReg (a : Nat) (s : State) : Byte × State :=
  if isNamed s.cfg a then (s.reg a, s) else drawByte s

/-- The target's current mode becomes `m`, and the status register shows it (R234). -/
def State.enterMode (s : State) (m : OperatingMode) : State :=
  { s.setReg s.cfg.statAddr (showMode s.cfg (s.reg s.cfg.statAddr) m) with mode := m }

/-- The mode request after a store to the control register that left the mode field `p` (R234). -/
def modeRequest (p : Byte) (s : State) : Except Refusal State :=
  match modeOf s.cfg p with
  | some req => if modeGrant s.cfg s.mode req then .ok (s.enterMode req) else .ok s
  | none => .error (.noSuchMode p)

/-- The run is marked (R13, R302). -/
def State.mark (s : State) (m : RunMark) : State := { s with marks := s.marks ++ [m] }

/-- One byte of `MemWrite` (R67, R138): the protection check, the store, the mode request. A discarded
store leaves the register and marks the run (R302); the status register and the unnamed addresses take no
write (R61, R63). -/
def storeReg (a : Nat) (v : Byte) (s : State) : Except Refusal State :=
  if isProtected s.cfg a && decide (s.mode ≠ .config) then .ok (s.mark (.protectedWrite a))
  else if a = s.cfg.statAddr then .error .statusWrite
  else if !(isNamed s.cfg a) then .error (.unnamedWrite a)
  else if a = s.cfg.ctrlAddr then modeRequest (v &&& modeMask) (s.setReg a v)
  else .ok (s.setReg a v)

/-- BITMOD in the target (R141), one indivisible step (R74). With mask 0 on a protected register nothing
is attempted and nothing is marked (R302). -/
def modifyReg (a : Nat) (mask value : Byte) (s : State) : Except Refusal State :=
  if isProtected s.cfg a && decide (s.mode ≠ .config) then
    if mask = 0 then .ok s else .ok (s.mark (.protectedWrite a))
  else if a = s.cfg.statAddr then .error .statusWrite
  else if !(isNamed s.cfg a) then .error (.unnamedWrite a)
  else if a = s.cfg.ctrlAddr ∧ mask &&& modeMask ≠ 0 then
    modeRequest (modeFieldAfter (s.reg a) mask value) (s.setReg a (bitModify (s.reg a) mask value))
  else .ok (s.setReg a (bitModify (s.reg a) mask value))

/-- `MemRead(a, n)` (R66): n samples in ascending address order. -/
def memRead : Nat → Nat → State → List Byte × State
  | _, 0, s => ([], s)
  | a, n + 1, s =>
    let r := sampleReg a s
    let rest := memRead (a + 1) n r.2
    (r.1 :: rest.1, rest.2)

/-- `MemWrite(a, n, v)` (R67): the single-byte stores in ascending address order. -/
def memWrite : Nat → List Byte → State → Except Refusal State
  | _, [], s => .ok s
  | a, v :: vs, s =>
    match storeReg a v s with
    | .error r => .error r
    | .ok s' => memWrite (a + 1) vs s'

/-! ### Requests to send -/

/-- The buffers of a selection, bit n for buffer n, are marked as requested (R98, R144). -/
def requestTx (sel : Byte) (s : State) : State :=
  s.setRequested
    { txb0 := s.requested.txb0 || sel.getLsbD 0
      txb1 := s.requested.txb1 || sel.getLsbD 1
      txb2 := s.requested.txb2 || sel.getLsbD 2 }

/-- Whether a buffer's transmission is requested and not yet out. -/
def isRequested (r : TxRequests) : TxBuf → Bool
  | .txb0 => r.txb0
  | .txb1 => r.txb1
  | .txb2 => r.txb2

/-- The buffer's request is over. -/
def endRequest (r : TxRequests) : TxBuf → TxRequests
  | .txb0 => { r with txb0 := false }
  | .txb1 => { r with txb1 := false }
  | .txb2 => { r with txb2 := false }

/-! ### Resets (R340) -/

/-- The target after RESET or power-up (R132, R342): every register at its image, mode PowerUp and shown so in
the status register, nothing requested. -/
def targetReset (s : State) : State :=
  { s with mem := [], mode := .powerUp, requested := ⟨false, false, false⟩ }

/-- Power-up of the target (R340 b): RESET's effect, and no chip-select window. -/
def targetPowerUp (s : State) : State := (targetReset s).setWindow none

/-- Power-up of the block (R341): the target keeps its registers (R340 a). -/
def blockPowerUp (s : State) : State :=
  { s with
    constructed := false
    tp := none
    osc := none
    bitrate := none
    needsReinit := false
    cs := .released
    window := none
    job := none
    wire := none
    response := [] }

/-! ### The host port -/

/-- The command in progress ends with this outcome and the block is idle (R30); nothing of its exchanges is kept
(R22, R28, R130). -/
def deliver (o : CmdOutcome) (s : State) : State :=
  { s with job := none, response := [], outcomes := s.outcomes ++ [o] }

/-- Only TransportFailure leaves the block needing re-initialization (R296). -/
def CmdError.needsReinit : CmdError → Bool
  | .transportFailure _ => true
  | .unsupportedTiming _ _ => false
  | .dlcRange _ => false
  | .unknownMode _ => false

/-- The error's code and sub-cause number (R291); no sub-cause is 0. -/
def CmdError.code : CmdError → Nat × Nat
  | .unsupportedTiming _ _ => (1, 0)
  | .transportFailure _ => (2, 0)
  | .dlcRange _ => (3, 1)
  | .unknownMode _ => (3, 2)

/-- `raise E(info)` (R296), the only way an error is taken: the chip-select window is closed, the block is
marked for re-initialization if the transport failed, the command and whatever it had still to issue is
abandoned, and the error is its outcome. Nothing is saved and there is no return (R298); nothing of its exchanges
is kept (R22, R28, R130). -/
def raiseError (e : CmdError) (s : State) : State :=
  { s with
    cs := .released
    window := none
    needsReinit := s.needsReinit || e.needsReinit
    job := none
    wire := none
    response := []
    outcomes := s.outcomes ++ [.error e] }

end Sys2Proof.Machine
end

