-- ==== Sys2Proof/Machine/Env.lean ====
section
/-! DEFINITION. The environment agent (R7, R38, R39, R144): what the target does on its own. Its choices
are inputs of the state; each step here changes only registers that are volatile at that moment. -/

namespace Sys2Proof.Machine

/-- `Volatile(a)` (R8, R38): the registers ENV may change as the state stands. -/
def isVolatile (s : State) (a : Nat) : Bool :=
  decide (a = intfAddr) || decide (a = errCnt0Addr) || decide (a = errCnt1Addr) || decide (a = eflgAddr) ||
  decide (a = s.cfg.statAddr) || decide (a = txBase .txb0) || decide (a = txBase .txb1) || decide (a = txBase .txb2) ||
  (inBlock (rxBase .rxb0) blockLen a && !(flagSet (s.reg intfAddr) s.cfg.rx0if)) ||
  (inBlock (rxBase .rxb1) blockLen a && !(flagSet (s.reg intfAddr) s.cfg.rx1if))

/-- Bits of INTF are set, none cleared (R38). -/
def setFlags (mask : Byte) (s : State) : State := s.setReg intfAddr (s.reg intfAddr ||| mask)

/-- Bytes are put into consecutive registers, no protection and no mode request: the target's own writes. -/
def putBytes : Nat → List Byte → State → State
  | _, [], s => s
  | a, v :: vs, s => putBytes (a + 1) vs (s.setReg a v)

/-- A frame arrives for receive buffer n (R38, R58): while the full flag is clear the block is filled and the
flag set, in one step; while it is set the buffer is left alone (R39). -/
def fillRx (n : RxBuf) (block : List Byte) (s : State) : State :=
  if flagSet (s.reg intfAddr) (rxFlag s.cfg n) then s
  else setFlags (rxFlag s.cfg n) (putBytes (rxBase n) (block.take blockLen) s)

/-- A requested transmission is over (R144): the control byte changes and the transmit flag is set. A buffer
that is not requested sends nothing. -/
def finishTx (n : TxBuf) (v : Byte) (s : State) : State :=
  if isRequested s.requested n then
    setFlags (txFlag s.cfg n) ((s.setReg (txBase n) v).setRequested (endRequest s.requested n))
  else s

/-- One ENV step. -/
def envStep (s : State) : EnvStep → State
  | .raiseFlags m => setFlags (m &&& ~~~(rxFlags s.cfg)) s
  | .fillRx n block => fillRx n block s
  | .errorCounter0 v => s.setReg errCnt0Addr v
  | .errorCounter1 v => s.setReg errCnt1Addr v
  | .errorFlags v => s.setReg eflgAddr v
  | .statusBits v => s.setReg s.cfg.statAddr (bitModify (s.reg s.cfg.statAddr) (~~~modeMask) v)
  | .txControl n v => s.setReg (txBase n) v
  | .txDone n v => finishTx n v s

/-- The ENV steps that fall into the next gap between two bytes on the wire (R76). -/
def envSlot (s : State) : State :=
  match s.env with
  | [] => s
  | steps :: rest => steps.foldl envStep (s.setEnv rest)

end Sys2Proof.Machine
end

