-- ==== Sys2Proof/Machine/Exchange.lean ====
section
/-! DEFINITION. The SPI exchange and `issue` (R32, R33, R130): the target-side decoder as the byte-serial
machine of R148, one exchange inside one chip-select window, and the frame every wire instruction runs in. -/

namespace Sys2Proof.Machine

/-! ### The target's transaction decoder -/

/-- Byte 0 of a transaction (R148): the opcode is latched, and the one-byte instructions take effect. -/
def opcodeByte (b : Byte) (s : State) : Except Refusal State :=
  let s' := s.setWindow (some ⟨1, b, 0, 0⟩)
  if b = opReset then .ok (targetReset s')
  else if b = opRead then .ok s'
  else if b = opWrite then .ok s'
  else if b = opBitmod then .ok s'
  else if b = opRts0 then .ok (requestTx (b &&& 0x07) s')
  else if b = opRts1 then .ok (requestTx (b &&& 0x07) s')
  else if b = opRts2 then .ok (requestTx (b &&& 0x07) s')
  else if b = opRtsAll then .ok (requestTx (b &&& 0x07) s')
  else .error (.invalidTransaction (.reservedOpcode b))

/-- The opcode has operand bytes after it. -/
def hasOperands (op : Byte) : Bool := decide (op = opRead) || decide (op = opWrite) || decide (op = opBitmod)

/-- Byte 1 (R148): the address pointer is loaded. -/
def addressByte (w : Window) (b : Byte) (s : State) : Except Refusal State :=
  if !(hasOperands w.op) then .error (.invalidTransaction .trailingBytes)
  else if b.toNat ≥ regCount then .error (.invalidTransaction .addressBit7)
  else .ok (s.setWindow (some { w with k := 2, ap := b.toNat }))

/-- A byte from byte 2 on (R135, R138, R141, R148), with the byte the target drives back. -/
def dataByte (w : Window) (b : Byte) (s : State) : Except Refusal (Byte × State) :=
  if w.op = opRead then
    if w.ap ≥ regCount then .error (.invalidTransaction .pastEnd)
    else
      let r := sampleReg w.ap s
      .ok (r.1, r.2.setWindow (some { w with k := w.k + 1, ap := w.ap + 1 }))
  else if w.op = opWrite then
    if w.ap ≥ regCount then .error (.invalidTransaction .pastEnd)
    else
      match storeReg w.ap b s with
      | .error r => .error r
      | .ok s' => .ok (drawByte (s'.setWindow (some { w with k := w.k + 1, ap := w.ap + 1 })))
  else if w.op = opBitmod then
    if w.k = 2 then .ok (drawByte (s.setWindow (some { w with k := 3, mask := b })))
    else if w.k = 3 then
      match modifyReg w.ap w.mask b s with
      | .error r => .error r
      | .ok s' => .ok (drawByte (s'.setWindow (some { w with k := 4 })))
    else .error (.invalidTransaction .bitmodLength)
  else .error (.invalidTransaction .trailingBytes)

/-- One byte clocked to the target and one clocked back (R32, R148); ENV may step before it (R76). With
chip-select released the target takes no notice of the byte. -/
def clockByte (b : Byte) (s₀ : State) : Except Refusal (Byte × State) :=
  let s := envSlot s₀
  match s.window with
  | none => .ok (drawByte s)
  | some w =>
    if w.k = 0 then (opcodeByte b s).map drawByte
    else if w.k = 1 then (addressByte w b s).map drawByte
    else dataByte w b s

/-- Bytes clocked in index order (R64), with the bytes driven back. -/
def clockBytes : List Byte → State → Except Refusal (List Byte × State)
  | [], s => .ok ([], s)
  | b :: bs, s =>
    match clockByte b s with
    | .error r => .error r
    | .ok (o, s') =>
      match clockBytes bs s' with
      | .error r => .error r
      | .ok (os, s'') => .ok (o :: os, s'')

/-- What the release of chip-select finds wrong with the window (R148): a READ or WRITE without a data byte,
a BITMOD short of its fourth. -/
def releaseCheck : Option Window → Option DecodeError
  | none => some .empty
  | some w =>
    if w.k = 0 then some .empty
    else if (w.op = opRead ∨ w.op = opWrite) ∧ w.k < 3 then some .noData
    else if w.op = opBitmod ∧ w.k < 4 then some .bitmodLength
    else none

/-- Chip-select is asserted: the target's decoder starts a transaction (R33, R148). -/
def openWindow (s : State) : State := { s with cs := .asserted, window := some ⟨0, 0, 0, 0⟩ }

/-- Chip-select is released: the decoder's state is discarded (R33, R36). -/
def closeWindow (s : State) : State := { s with cs := .released, window := none }

/-! ### The exchange -/

/-- What the transport does with this exchange (R32). -/
def nextVerdict (s : State) : Verdict × State :=
  match s.spi with
  | [] => (.ok, s)
  | v :: vs => (v, s.setSpi vs)

/-- The bytes that reach the target (R145). -/
def sentBytes (v : Verdict) (tx : List Byte) : List Byte :=
  match v with
  | .ok => tx
  | .fail k => tx.take k
  | .returns _ => tx

/-- The bytes the transport hands back, or none where it fails (R32, R293). -/
def returnedBytes (v : Verdict) (rx : List Byte) : Option (List Byte) :=
  match v with
  | .ok => some rx
  | .fail _ => none
  | .returns n => if n = rx.length then some rx else none

/-- The exchange reached its end, so the target judges the transaction at the release. -/
def reachesEnd : Verdict → Bool
  | .ok => true
  | .fail _ => false
  | .returns _ => true

/-- One transaction is over: the window is closed, and the trace has its line (R104). DESIGN CHOICE
(notes/assumptions/25.md): R104 does not say what the line of a failed exchange holds, or of one whose response has
another length; here it is the bytes that reached the target and the bytes the target drove. -/
def endTransaction (sent received : List Byte) (s : State) : State :=
  { closeWindow s with trace := s.trace ++ [⟨sent, received⟩] }

/-- `Resp` (R99, R103): only READ has a response, the bytes after the first two. -/
def responseOf (i : Instr) (rx : List Byte) : List Byte :=
  match i with
  | .read _ _ => rx.drop 2
  | .write _ _ => []
  | .bitmod _ _ _ => []
  | .reset => []
  | .rtsTxb0 => []
  | .rtsTxb1 => []
  | .rtsTxb2 => []
  | .rtsAll => []

/-- What the block does with the bytes handed back (R130): the response, or TransportFailure. -/
def concludeIssue (i : Instr) (rx : Option (List Byte)) (s : State) : State :=
  match rx with
  | some bytes => s.setResponse (responseOf i bytes)
  | none => raiseError (.transportFailure i) s

/-- `issue I` (R130): the operand check, then exactly one exchange inside one chip-select window. -/
def issue (i : Instr) (s : State) : Host.Outcome State Fault Refusal :=
  match operandCheck i with
  | some r => .refused (problemRefusal r)
  | none =>
    let v := (nextVerdict s).1
    let sent := sentBytes v (encode i)
    match clockBytes sent (openWindow (nextVerdict s).2) with
    | .error r => .refused r
    | .ok (rx, s') =>
      match (if reachesEnd v then releaseCheck s'.window else none) with
      | some why => .refused (.invalidTransaction why)
      | none => .next (concludeIssue i (returnedBytes v rx) (endTransaction sent rx s'))

end Sys2Proof.Machine
end

