-- ==== Sys2Proof/Machine/Rts.lean ====
section
/-! DEFINITION. The request-to-send instruction (R143, R144), one meaning per code: the selected transmit
buffers are marked as requested and no register changes; sending is ENV's (Machine/Env.lean). -/

namespace Sys2Proof.Machine

/-- RTS of transmit buffer 0, code 0x81. -/
def execRtsTxb0 (s : State) : Host.Outcome State Fault Refusal := issue .rtsTxb0 s

/-- RTS of transmit buffer 1, code 0x82. -/
def execRtsTxb1 (s : State) : Host.Outcome State Fault Refusal := issue .rtsTxb1 s

/-- RTS of transmit buffer 2, code 0x84. -/
def execRtsTxb2 (s : State) : Host.Outcome State Fault Refusal := issue .rtsTxb2 s

/-- RTS of all three transmit buffers, code 0x87. -/
def execRtsAll (s : State) : Host.Outcome State Fault Refusal := issue .rtsAll s

end Sys2Proof.Machine
end

