-- ==== Sys2Proof/Machine/Transport.lean ====
section
/-! DEFINITION. The four register operations of the Register Transport (40_transport.md), each one `issue`
(R130): the operand check, one exchange, the response. What the target does with the bytes is the decoder's
(Machine/Exchange.lean) and the register operations' (Machine/Ops.lean). -/

namespace Sys2Proof.Machine

/-- RESET (R132): the target's registers take their image and its mode becomes PowerUp; the block's state
other than the response is untouched. -/
def execReset (s : State) : Host.Outcome State Fault Refusal := issue .reset s

/-- READ (R134, R135): the response is `MemRead(start, count)`. -/
def execRead (start count : Nat) (s : State) : Host.Outcome State Fault Refusal := issue (.read start count) s

/-- WRITE (R137, R138): the effect on the target is `MemWrite(start, data)`. -/
def execWrite (start : Nat) (data : List Byte) (s : State) : Host.Outcome State Fault Refusal :=
  issue (.write start data) s

/-- BITMOD (R140, R141): the atomic read-modify-write of one register. -/
def execBitmod (address : Nat) (mask value : Byte) (s : State) : Host.Outcome State Fault Refusal :=
  issue (.bitmod address mask value) s

end Sys2Proof.Machine
end

