-- ==== Sys2Proof/Machine/Dispatch.lean ====
section
/-! DEFINITION. The meaning of every wire instruction, one arm per constructor of Instr. -/

namespace Sys2Proof.Machine

def exec (i : Instr) (s : State) : Host.Outcome State Fault Refusal :=
  match i with
  | .reset => Sys2Proof.Machine.execReset s
  | .read start count => Sys2Proof.Machine.execRead start count s
  | .write start data => Sys2Proof.Machine.execWrite start data s
  | .bitmod address mask value => Sys2Proof.Machine.execBitmod address mask value s
  | .rtsTxb0 => Sys2Proof.Machine.execRtsTxb0 s
  | .rtsTxb1 => Sys2Proof.Machine.execRtsTxb1 s
  | .rtsTxb2 => Sys2Proof.Machine.execRtsTxb2 s
  | .rtsAll => Sys2Proof.Machine.execRtsAll s

end Sys2Proof.Machine
end

