-- ==== Sys2Proof/Machine/Sequencer.lean ====
section
/-! DEFINITION. The two sequencers (43_mode_controller.md, 44_receive_dispatcher.md) and the host port
(R30): accepting a command, offering its wire instructions to the SPI port one after the other, and what
follows when the last has been issued. -/

namespace Sys2Proof.Machine

/-- A command is in progress: these wire instructions, then this. -/
def startJob (queue : List Instr) (finish : Finish) (s : State) : State := s.setJob (some ⟨queue, finish⟩)

/-- `refuse Reason` on the host port (R300): nothing but the outcome. -/
def refuseCommand (r : RefuseReason) (s : State) : State := deliver (.refused r) s

/-! ### The construction protocol -/

/-- The BITMOD of `setMode(m)` (R232). -/
def setModeInstr (c : Cfg) (m : OperatingMode) : Instr := .bitmod c.ctrlAddr modeMask (modePattern c m)

/-- Step 2 (R243): the transmit blocks, the receive control bytes, the filters and the masks are zeroed. -/
def zeroWrites (c : Cfg) : List Instr :=
  [Instr.write (txBase .txb0) (zeros blockLen),
   Instr.write (txBase .txb1) (zeros blockLen),
   Instr.write (txBase .txb2) (zeros blockLen),
   Instr.write (rxBase .rxb0) (zeros 1),
   Instr.write (rxBase .rxb1) (zeros 1),
   Instr.write c.filter0 (zeros 4),
   Instr.write c.filter1 (zeros 4),
   Instr.write c.filter2 (zeros 4),
   Instr.write c.filter3 (zeros 4),
   Instr.write c.filter4 (zeros 4),
   Instr.write c.filter5 (zeros 4),
   Instr.write maskBase0 (zeros 4),
   Instr.write maskBase1 (zeros 4)]

/-- Step 4 (R245): CNF3, CNF2, CNF1, each in a transaction of its own. -/
def cnfWrites (cnf : CnfBytes) : List Instr :=
  [Instr.write cnf3Addr [cnf.cnf3], Instr.write cnf2Addr [cnf.cnf2], Instr.write cnf1Addr [cnf.cnf1]]

/-- `initSequence` (R240 to R247): the 19 wire instructions of the five steps, in their order. -/
def initSequence (c : Cfg) (cnf : CnfBytes) : List Instr :=
  setModeInstr c .config ::
    (zeroWrites c ++ (Instr.write inteAddr [inteDefault c] :: (cnfWrites cnf ++ [setModeInstr c .normal])))

/-! ### Receive and transmit -/

/-- The BITMOD of `clearRxFlag(n)` (R264). -/
def clearFlagInstr (c : Cfg) (n : RxBuf) : Instr := .bitmod intfAddr (rxFlag c n) 0x00

/-- The header READ of `receive(n)` (R262). -/
def headerRead (n : RxBuf) : Instr := .read (rxBase n) hdrLen

/-- The wire instructions of `send` once the frame is encoded (R272). -/
def sendInstrs (n : TxBuf) (h : Header) (payload : List Byte) : List Instr :=
  match payload with
  | [] => [Instr.write (txBase n) (headerBytes h), rtsInstr n]
  | _ :: _ => [Instr.write (txBase n) (headerBytes h), Instr.write (txBase n + hdrLen) payload, rtsInstr n]

/-! ### Accepting a command -/

/-- A raw transport command (R134, R137, R140): refused on its operands, or one wire instruction. -/
def acceptWire (i : Instr) (finish : Finish) (s : State) : State :=
  match operandCheck i with
  | some p => refuseCommand (problemReason p) s
  | none => startJob [i] finish s

/-- `rts(sel)` (R143). -/
def acceptRts (sel : RtsOperand) (s : State) : State :=
  match rtsOperand sel with
  | none => refuseCommand .badBuffer s
  | some i => startJob [i] .unit s

/-- `resolve` as a command (R201). -/
def acceptResolve (osc bitrate : Nat) (s : State) : State :=
  match resolve s.cfg.timingTable osc bitrate with
  | none => raiseError (.unsupportedTiming osc bitrate) s
  | some tp => deliver (.ok (.timing tp)) s

/-- `packCNF` as a command (R207). -/
def acceptPackCNF (tp : TimingParameters) (s : State) : State :=
  match packCNF tp with
  | none => refuseCommand .badTiming s
  | some cnf => deliver (.ok (.cnf cnf)) s

/-- `decodeHeader` as a command (R166). -/
def acceptDecodeHeader (h : Header) (s : State) : State :=
  match decodeHeader s.cfg h with
  | .error e => raiseError e s
  | .ok r => deliver (.ok (.header r.1 r.2)) s

/-- `encodeFrame` as a command (R176). -/
def acceptEncodeFrame (f : CanFrame) (s : State) : State :=
  match encodeFrame s.cfg f with
  | none => refuseCommand .badFrame s
  | some r => deliver (.ok (.encoded r.1 r.2)) s

/-- A new driver instance begins (R240): not constructed, with its parameters. -/
def beginInstance (osc bitrate : Nat) (tp : TimingParameters) (s : State) : State :=
  { s with constructed := false, tp := some tp, osc := some osc, bitrate := some bitrate }

/-- The fifth step of `construct` is done (R240). -/
def instanceReady (s : State) : State := { s with constructed := true, needsReinit := false }

/-- The fifth step of `reinit` is done (R248). -/
def reinitDone (s : State) : State := { s with needsReinit := false }

/-- `construct` (R240): the lookup first, so that an unsupported pair changes nothing. -/
def acceptConstruct (osc bitrate : Nat) (s : State) : State :=
  match resolve s.cfg.timingTable osc bitrate with
  | none => raiseError (.unsupportedTiming osc bitrate) s
  | some tp =>
    match packCNF tp with
    | none => refuseCommand .badTiming s
    | some cnf =>
      startJob (initSequence s.cfg cnf) .construct (beginInstance osc bitrate tp s)

/-- `reinit` (R248): the five steps again with the stored parameters. -/
def acceptReinit (s : State) : Host.Outcome State Fault Refusal :=
  match s.tp with
  | none => .fault .unresolvedTiming
  | some tp =>
    match packCNF tp with
    | none => .next (refuseCommand .badTiming s)
    | some cnf => .next (startJob (initSequence s.cfg cnf) .reinit s)

/-- `receive(n)` (R262). -/
def acceptReceive (n : Nat) (s : State) : State :=
  match rxBufOf n with
  | none => refuseCommand .badBuffer s
  | some b => startJob [headerRead b] (.header b false) s

/-- `clearRxFlag(n)` (R264). -/
def acceptClearRxFlag (n : Nat) (s : State) : State :=
  match rxBufOf n with
  | none => refuseCommand .badBuffer s
  | some b => startJob [clearFlagInstr s.cfg b] .unit s

/-- `send(frame, n)` (R272): the buffer is checked before the frame (R308). -/
def acceptSend (f : CanFrame) (n : Nat) (s : State) : State :=
  match txBufOf n with
  | none => refuseCommand .badBuffer s
  | some b =>
    match encodeFrame s.cfg f with
    | none => refuseCommand .badFrame s
    | some r => startJob (sendInstrs b r.1 r.2) .unit s

/-- A command past the construction gate. -/
def acceptOpen (c : Command) (s : State) : Host.Outcome State Fault Refusal :=
  match c with
  | .reset => .next (startJob [.reset] .unit s)
  | .readRegisters a n => .next (acceptWire (.read a n) .bytes s)
  | .writeRegister a d => .next (acceptWire (.write a d) .unit s)
  | .modifyRegister a m v => .next (acceptWire (.bitmod a m v) .unit s)
  | .rts sel => .next (acceptRts sel s)
  | .resolve osc br => .next (acceptResolve osc br s)
  | .packCNF tp => .next (acceptPackCNF tp s)
  | .decodeHeader h => .next (acceptDecodeHeader h s)
  | .encodeFrame f => .next (acceptEncodeFrame f s)
  | .setMode m => .next (startJob [setModeInstr s.cfg m] .unit s)
  | .status => .next (startJob [.read s.cfg.statAddr 1] .status s)
  | .construct osc br => .next (acceptConstruct osc br s)
  | .reinit => acceptReinit s
  | .receive n => .next (acceptReceive n s)
  | .clearRxFlag n => .next (acceptClearRxFlag n s)
  | .poll => .next (startJob [.read intfAddr 1] .pollFlags s)
  | .send f n => .next (acceptSend f n s)

/-- A command arrives on the idle host port (R30): the gate of R23 first (R308), then the command's own checks. -/
def acceptCommand (c : Command) (s : State) : Host.Outcome State Fault Refusal :=
  if s.constructed || runsUnconstructed c then acceptOpen c s else .next (refuseCommand .notConstructed s)

/-- What happens at the host's side (R340, R345). -/
def acceptEvent (e : HostEvent) (s : State) : Host.Outcome State Fault Refusal :=
  match e with
  | .command c => acceptCommand c s
  | .blockPowerUp => .next (blockPowerUp s)
  | .targetPowerUp => .next (targetPowerUp s)

/-! ### Finishing a command -/

/-- The status byte is split (R236). -/
def finishStatus (b : Byte) (s : State) : State :=
  match statusMode s.cfg b with
  | none => raiseError (.unknownMode b) s
  | some m => deliver (.ok (.status (causeCode s.cfg b) m)) s

/-- The flag byte decides which buffer is served (R266, R267): buffer 0 before buffer 1. -/
def finishPollFlags (b : Byte) (s : State) : State :=
  if flagSet b s.cfg.rx0if then startJob [headerRead .rxb0] (.header .rxb0 true) s
  else if flagSet b s.cfg.rx1if then startJob [headerRead .rxb1] (.header .rxb1 true) s
  else deliver (.ok .noFrame) s

/-- A frame is complete: `receive` answers with it, `poll` clears its buffer's flag first (R266). -/
def frameRead (f : CanFrame) (n : RxBuf) (clear : Bool) (s : State) : State :=
  if clear then startJob [clearFlagInstr s.cfg n] (.frame f) s else deliver (.ok (.frame f)) s

/-- The header is decoded; the payload is read only if there is one (R262). -/
def finishHeader (h : Header) (n : RxBuf) (clear : Bool) (s : State) : State :=
  match decodeHeader s.cfg h with
  | .error e => raiseError e s
  | .ok r =>
    if r.2 > 0 then startJob [.read (rxBase n + hdrLen) r.2] (.payload n r.1 clear) s
    else frameRead ⟨r.1, []⟩ n clear s

/-- The wire instructions of the command in progress have been issued, and the last returned `r`. -/
def finishJob (f : Finish) (r : List Byte) (s : State) : Host.Outcome State Fault Refusal :=
  match f with
  | .unit => .next (deliver (.ok .unit) s)
  | .bytes => .next (deliver (.ok (.bytes r)) s)
  | .status =>
    match r with
    | [b] => .next (finishStatus b s)
    | _ => .fault .responseShape
  | .construct => .next (deliver (.ok .unit) (instanceReady s))
  | .reinit => .next (deliver (.ok .unit) (reinitDone s))
  | .pollFlags =>
    match r with
    | [b] => .next (finishPollFlags b s)
    | _ => .fault .responseShape
  | .header n clear =>
    match headerOf r with
    | some h => .next (finishHeader h n clear s)
    | none => .fault .responseShape
  | .payload n id clear => .next (frameRead ⟨id, r⟩ n clear s)
  | .frame fr => .next (deliver (.ok (.frame fr)) s)

/-! ### The block's move -/

/-- No transaction is offered to the SPI port: the command in progress offers its next one or finishes; an
idle block takes the next host event; with none, ENV has its step and the block waits. What the last `issue`
returned is used by this move or discarded, and not kept beyond it (R28, R130). -/
def advance (s : State) : Host.Outcome State Fault Refusal :=
  let t := s.setResponse []
  match s.job with
  | some j =>
    match j.queue with
    | i :: q => .next ((t.setWire (some (encode i))).setJob (some { j with queue := q }))
    | [] => finishJob j.finish s.response t
  | none =>
    match s.host with
    | e :: es => acceptEvent e (t.setHost es)
    | [] => .next (envSlot t)

end Sys2Proof.Machine
end

