-- ==== Sys2Proof/Machine/Step.lean ====
section
/-! DEFINITION. One step of the machine, and how a word of the opcode table is put where the next step takes
its instruction from. -/

namespace Sys2Proof.Machine

/-- One step. A transaction offered to the SPI port is decoded and executed, whole; otherwise the block
moves (`advance`). Bytes that are no instruction are refused (R147, R301). -/
def step (s : State) : Host.Outcome State Fault Refusal :=
  match s.wire with
  | some tx =>
    match decode tx with
    | .ok i => exec i (s.setWire none)
    | .error why => .refused (.invalidTransaction why)
  | none => advance s

/-- The state with the instruction of a table word offered to the SPI port, where the next step takes it
from (notes/assumptions/2.md). -/
def State.withFetchWord (s : State) (nbits w : Nat) : State := s.setWire (some (tableBytes nbits w))

end Sys2Proof.Machine
end

