-- ==== Sys2Proof/Machine/Whole.lean ====
section
/-! DEFINITION. The whole-transaction view of the target (R132 to R145): the effect of an instruction of which the
first k bytes have been received, with no ENV step between them. The machine itself runs the byte-serial
view of R148 (Machine/Exchange.lean); the two are compared in the statements. -/

namespace Sys2Proof.Machine

/-- The effect of a prefix (R145): RESET and RTS with their one byte, READ none, WRITE with the data bytes
received, BITMOD with its fourth byte. -/
def prefixEffect (i : Instr) (k : Nat) (s : State) : Except Refusal State :=
  match i with
  | .reset => .ok (if k ≥ 1 then targetReset s else s)
  | .read _ _ => .ok s
  | .write a d => memWrite a (d.take (k - 2)) s
  | .bitmod a m v => if k ≥ 4 then modifyReg a m v s else .ok s
  | .rtsTxb0 => .ok (if k ≥ 1 then requestTx 0x01 s else s)
  | .rtsTxb1 => .ok (if k ≥ 1 then requestTx 0x02 s else s)
  | .rtsTxb2 => .ok (if k ≥ 1 then requestTx 0x04 s else s)
  | .rtsAll => .ok (if k ≥ 1 then requestTx 0x07 s else s)

/-- The effect of a whole transaction (R132, R135, R138, R141, R144). -/
def wholeEffect (i : Instr) (s : State) : Except Refusal State :=
  match i with
  | .reset => .ok (targetReset s)
  | .read _ _ => .ok s
  | .write a d => memWrite a d s
  | .bitmod a m v => modifyReg a m v s
  | .rtsTxb0 => .ok (requestTx 0x01 s)
  | .rtsTxb1 => .ok (requestTx 0x02 s)
  | .rtsTxb2 => .ok (requestTx 0x04 s)
  | .rtsAll => .ok (requestTx 0x07 s)

/-- The response of a whole transaction (R99): `MemRead` of a READ, after the two bytes drawn for the opcode and
the address, and nothing otherwise. -/
def wholeResponse (i : Instr) (s : State) : List Byte :=
  match i with
  | .read a n => (memRead a n (drawByte (drawByte s).2).2).1
  | .reset => []
  | .write _ _ => []
  | .bitmod _ _ _ => []
  | .rtsTxb0 => []
  | .rtsTxb1 => []
  | .rtsTxb2 => []
  | .rtsAll => []

/-- How many bytes of an instruction the target receives under a verdict (R145, D44). -/
def receivedCount (v : Verdict) (i : Instr) : Nat :=
  match v with
  | .ok => (encode i).length
  | .fail k => k
  | .returns _ => (encode i).length

end Sys2Proof.Machine
end

