-- ==== Sys2Proof/Safety.lean ====
section
/-! DEFINITION. The terms claims are stated in: a state in which no agent outside interferes, what one issued
instruction leaves alone, a run without a protected write, and the invariant of every step. -/

namespace Sys2Proof.Safety

open Sys2Proof.Machine

/-- No ENV step is at hand and the transport carries every exchange: the "no ENV step and no failure" of R149. -/
def Quiet (s : State) : Prop := s.env = [] ∧ s.spi = []

/-- The host port is idle: no command in progress and nothing offered to the SPI port (R30). -/
def Idle (s : State) : Prop := s.job = none ∧ s.wire = none

/-- Two states show the same target: every register, the mode, the requests and the marks. -/
structure SameTarget (s t : State) : Prop where
  reg : ∀ x, t.reg x = s.reg x
  mode : t.mode = s.mode
  requested : t.requested = s.requested
  marks : t.marks = s.marks

/-- The block and the parameters are as they were: what no wire instruction that succeeds changes (R28, R130). -/
structure SameBlock (s t : State) : Prop where
  cfg : t.cfg = s.cfg
  constructed : t.constructed = s.constructed
  tp : t.tp = s.tp
  osc : t.osc = s.osc
  bitrate : t.bitrate = s.bitrate
  needsReinit : t.needsReinit = s.needsReinit
  job : t.job = s.job
  wire : t.wire = s.wire
  host : t.host = s.host
  spi : t.spi = s.spi
  env : t.env = s.env
  outcomes : t.outcomes = s.outcomes

/-- From `s` to `t` the block issued `i` and nothing else: one exchange of its bytes in one chip-select window,
released at the end, and the block as it was (R33, R130, R149 g). -/
structure IssuedOnce (i : Instr) (s t : State) : Prop where
  block : SameBlock s t
  released : t.cs = .released
  window : t.window = none
  trace : ∃ rx : List Byte, rx.length = (encode i).length ∧ t.trace = s.trace ++ [⟨encode i, rx⟩]

/-- A store to `a` takes effect in the state: not the status register, named, and not protected outside Config (R62). -/
def Writable (s : State) (a : Nat) : Prop :=
  a ≠ s.cfg.statAddr ∧ isNamed s.cfg a = true ∧ ¬ (isProtected s.cfg a = true ∧ s.mode ≠ .config)

/-- The ProtectedWrite marks of a WRITE of `n` bytes from `a` on in this mode, in address order (R62, R302). -/
def discards (c : Cfg) (mode : OperatingMode) (a n : Nat) : List RunMark :=
  ((List.range n).filter fun k => isProtected c (a + k) && decide (mode ≠ .config)).map fun k => .protectedWrite (a + k)

/-- The instruction stores to the register (R137, R140); RESET and RTS name none. -/
def storesTo (i : Instr) (a : Nat) : Bool :=
  match i with
  | .write b d => inBlock b d.length a
  | .bitmod b _ _ => decide (b = a)
  | .read _ _ => false
  | .reset => false
  | .rtsTxb0 => false
  | .rtsTxb1 => false
  | .rtsTxb2 => false
  | .rtsAll => false

/-- The instruction's store requests a mode (R234): a WRITE byte to the control register, or a BITMOD of it whose
mask has a bit of the mode field. -/
def requestsMode (c : Cfg) (i : Instr) : Bool :=
  match i with
  | .write b d => inBlock b d.length c.ctrlAddr
  | .bitmod b m _ => decide (b = c.ctrlAddr) && decide (m &&& modeMask ≠ 0)
  | .read _ _ => false
  | .reset => false
  | .rtsTxb0 => false
  | .rtsTxb1 => false
  | .rtsTxb2 => false
  | .rtsAll => false

/-- The instruction may clear the flag bits `m` of INTF: a WRITE over it, a BITMOD of it whose mask has one of
them, or RESET (R264, R304). -/
def mayClearFlag (m : Byte) (i : Instr) : Bool :=
  match i with
  | .write b d => inBlock b d.length intfAddr
  | .bitmod b k _ => decide (b = intfAddr) && decide (k &&& m ≠ 0)
  | .reset => true
  | .read _ _ => false
  | .rtsTxb0 => false
  | .rtsTxb1 => false
  | .rtsTxb2 => false
  | .rtsAll => false

/-- With no command in progress nothing is offered to the SPI port and no bytes of an exchange are held (R22, R28,
R341). -/
def NothingKept (s : State) : Prop := s.job = none → s.wire = none ∧ s.response = []

/-! ### Commands -/

/-- Some steps, all of them taken. -/
def Runs (k : Nat) (s t : State) : Prop := Host.Core.run Sys2Proof.core k s = .next t

/-- The host presents a command to the idle block, and this after it (R30). -/
def Presents (c : Command) (rest : List HostEvent) (s : State) : Prop := Idle s ∧ s.host = .command c :: rest

/-- The command has ended: this outcome and no other, the block idle again, chip-select released (R30, R33). -/
structure Answered (o : CmdOutcome) (rest : List HostEvent) (s t : State) : Prop where
  idle : Idle t
  released : t.cs = .released
  window : t.window = none
  host : t.host = rest
  spi : t.spi = s.spi
  env : t.env = s.env
  cfg : t.cfg = s.cfg
  outcomes : t.outcomes = s.outcomes ++ [o]

/-- The driver instance is as it was (R22). -/
structure SameInstance (s t : State) : Prop where
  constructed : t.constructed = s.constructed
  tp : t.tp = s.tp
  osc : t.osc = s.osc
  bitrate : t.bitrate = s.bitrate
  needsReinit : t.needsReinit = s.needsReinit

/-- The wire carried exactly these instructions, in this order (R105). -/
def Sent (is : List Instr) (s t : State) : Prop :=
  ∃ tr : List Transaction, t.trace = s.trace ++ tr ∧ tr.map Transaction.sent = is.map encode

/-- The six header registers of the block at `base` (R56). -/
def headerAt (s : State) (base : Nat) : Header :=
  ⟨s.reg base, s.reg (base + 1), s.reg (base + 2), s.reg (base + 3), s.reg (base + 4), s.reg (base + 5)⟩

/-- `n` registers from `a` on, in ascending order. -/
def regsAt (s : State) (a n : Nat) : List Byte := (List.range n).map fun k => s.reg (a + k)

/-- The 19 wire instructions of a construction with these bit-timing bytes, written out (R240, R246). -/
def bringUp (c : Cfg) (cnf : CnfBytes) : List Instr :=
  [.bitmod c.ctrlAddr 0xE0 c.patConfig,
   .write 0x30 (zeros 14), .write 0x40 (zeros 14), .write 0x50 (zeros 14),
   .write 0x60 [0x00], .write 0x70 [0x00],
   .write c.filter0 (zeros 4), .write c.filter1 (zeros 4), .write c.filter2 (zeros 4),
   .write c.filter3 (zeros 4), .write c.filter4 (zeros 4), .write c.filter5 (zeros 4),
   .write 0x20 (zeros 4), .write 0x24 (zeros 4),
   .write 0x2B [c.rx0if ||| c.rx1if ||| c.errif ||| c.merrf],
   .write 0x2A [cnf.cnf3], .write 0x29 [cnf.cnf2], .write 0x28 [cnf.cnf1],
   .bitmod c.ctrlAddr 0xE0 c.patNormal]

/-- The registers step 2 of the protocol zeroes (R243). -/
def isZeroed (c : Cfg) (a : Nat) : Bool :=
  inBlock 0x30 14 a || inBlock 0x40 14 a || inBlock 0x50 14 a || decide (a = 0x60) || decide (a = 0x70) ||
  isFilterByte c a || inBlock 0x20 8 a

/-- The post-condition of a successful `construct` or `reinit` on the target and the wire (R250), and the registers
it leaves as they were (R249 d). -/
structure BroughtUp (cnf : CnfBytes) (s t : State) : Prop where
  cnf1 : t.reg 0x28 = cnf.cnf1
  cnf2 : t.reg 0x29 = cnf.cnf2
  cnf3 : t.reg 0x2A = cnf.cnf3
  inte : t.reg 0x2B = s.cfg.rx0if ||| s.cfg.rx1if ||| s.cfg.errif ||| s.cfg.merrf
  zeroed : ∀ a, isZeroed s.cfg a = true → t.reg a = 0x00
  ctrl : t.reg s.cfg.ctrlAddr = (s.reg s.cfg.ctrlAddr &&& 0x1F) ||| s.cfg.patNormal
  stat : t.reg s.cfg.statAddr = (s.reg s.cfg.statAddr &&& 0x1F) ||| s.cfg.patNormal
  mode : t.mode = .normal
  others : ∀ a, isZeroed s.cfg a = false → a ∉ [0x28, 0x29, 0x2A, 0x2B, s.cfg.ctrlAddr, s.cfg.statAddr] →
    t.reg a = s.reg a
  requested : t.requested = s.requested
  unmarked : t.marks = s.marks
  sent : Sent (bringUp s.cfg cnf) s t

/-! ### The invariant -/

/-- The status register shows the target's mode (R35). -/
def ModeShown (s : State) : Prop := s.reg s.cfg.statAddr &&& modeMask = modePattern s.cfg s.mode

/-- The timing parameters are in range, and a constructed block has some (R24, R40). -/
def TimingOk (s : State) : Prop :=
  (∀ tp, s.tp = some tp → tp.wf = true) ∧ (s.constructed = true → s.tp ≠ none)

/-- How many response bytes a command waits for at its end; none where any number will do. -/
def awaits : Finish → Option Nat
  | .unit => none
  | .bytes => none
  | .status => some 1
  | .construct => none
  | .reinit => none
  | .pollFlags => some 1
  | .header _ _ => some 6
  | .payload _ _ _ => none
  | .frame _ => none

/-- The instruction is a READ of `n` registers. -/
def ReadsBytes (n : Nat) (i : Instr) : Prop := ∃ a, i = .read a n

/-- The bytes a command waits for are those of its last READ, queued, offered or answered (R236, R262, R266). -/
def AnswerComing (s : State) (j : Job) (n : Nat) : Prop :=
  match j.queue.getLast?, s.wire with
  | some i, _ => ReadsBytes n i
  | none, some tx => ∃ i, decode tx = .ok i ∧ ReadsBytes n i
  | none, none => s.response.length = n

/-- The command in progress has well-formed instructions to issue, will have the bytes it waits for, and a
construction has its timing parameters (R240). -/
def JobOk (s : State) : Prop :=
  ∀ j, s.job = some j → (∀ i ∈ j.queue, i.wf = true) ∧ (∀ n, awaits j.finish = some n → AnswerComing s j n) ∧
    (j.finish = .construct → s.tp ≠ none)

/-- What every step keeps: legal parameters, memory in canonical form, the mode shown, chip-select released and no
open window between steps (R33, R36), the timing parameters in range, and the command in progress in order. -/
structure MachineInv (s : State) : Prop where
  cfg : s.cfg.wf = true
  mem : Memory.wf s.mem = true
  mode : ModeShown s
  released : s.cs = .released
  window : s.window = none
  timing : TimingOk s
  job : JobOk s

end Sys2Proof.Safety
end

