-- ==== Sys2Proof/Certificates/Slice0/Obligations.lean ====
section
/-! DEFINITION. The statements for the provers, in the order of OBLIGATIONS.json. Each docstring names the
rules of spec/ it formalises. A statement over a register whose reset value is free holds for every value of
`Config.resetImage` and `Config.freeByte`; one over `s.cfg` holds for every legal parameter record. -/

section Statements

open Sys2Proof Sys2Proof.Machine Sys2Proof.Safety

/-! ### Reset and power-up -/

/-- R40, R41, R341, R342: the machine after both power-ups. That a run starts from both is the model's choice
(notes/assumptions/5.md). -/
def Obligations.ResetState : Prop :=
  State.reset.constructed = false ∧ State.reset.tp = none ∧ State.reset.osc = none ∧ State.reset.bitrate = none ∧
  State.reset.needsReinit = false ∧ State.reset.cs = .released ∧ State.reset.window = none ∧ Idle State.reset ∧
  State.reset.response = [] ∧
  State.reset.mode = .powerUp ∧ State.reset.requested = ⟨false, false, false⟩ ∧ State.reset.marks = [] ∧
  (∀ a, a ≠ State.reset.cfg.statAddr → State.reset.reg a = Config.resetImage a) ∧
  State.reset.reg State.reset.cfg.statAddr =
    (Config.resetImage State.reset.cfg.statAddr &&& 0x1F) ||| State.reset.cfg.patPowerUp

/-- The invariant of every step holds after reset. -/
def Obligations.ResetMeetsInvariant : Prop := MachineInv State.reset

/-- R341, R340 a: block power-up sets every field of the block, and the target keeps its registers. -/
def Obligations.BlockPowerUpState : Prop :=
  ∀ (s : State) (es : List HostEvent), Idle s → s.host = .blockPowerUp :: es →
    ∃ t, step s = .next t ∧ Idle t ∧ t.constructed = false ∧ t.tp = none ∧ t.osc = none ∧ t.bitrate = none ∧
      t.needsReinit = false ∧ t.cs = .released ∧ t.window = none ∧ t.response = [] ∧
      t.cfg = s.cfg ∧ t.mem = s.mem ∧ SameTarget s t ∧
      t.host = es ∧ t.spi = s.spi ∧ t.env = s.env ∧ t.outcomes = s.outcomes ∧ t.trace = s.trace

/-- R342, R340 b: target power-up sets the mode and every register, and leaves the block as it was. -/
def Obligations.TargetPowerUpState : Prop :=
  ∀ (s : State) (es : List HostEvent), Idle s → s.cfg.wf = true → s.host = .targetPowerUp :: es →
    ∃ t, step s = .next t ∧ Idle t ∧ t.mode = .powerUp ∧ t.requested = ⟨false, false, false⟩ ∧
      (∀ a, a ≠ s.cfg.statAddr → t.reg a = Config.resetImage a) ∧
      t.reg s.cfg.statAddr = (Config.resetImage s.cfg.statAddr &&& 0x1F) ||| s.cfg.patPowerUp ∧
      t.window = none ∧ SameInstance s t ∧ t.cs = s.cs ∧ t.cfg = s.cfg ∧ t.marks = s.marks ∧
      t.host = es ∧ t.spi = s.spi ∧ t.env = s.env ∧ t.outcomes = s.outcomes ∧ t.trace = s.trace

/-! ### Encoding -/

/-- R92 to R98 and 95_test_vectors.md section 2.1: written-out transactions and what they stand for. -/
def Obligations.SpecWordsDecode : Prop :=
  decode [0xC0] = .ok .reset ∧
  decode [0x03, 0x2C, 0x00] = .ok (.read 0x2C 1) ∧
  decode [0x03, 0x60, 0, 0, 0, 0, 0, 0] = .ok (.read 0x60 6) ∧
  decode [0x03, 0x2C, 0x55] = .ok (.read 0x2C 1) ∧
  decode [0x02, 0x36, 0x11, 0x22, 0x33] = .ok (.write 0x36 [0x11, 0x22, 0x33]) ∧
  decode [0x05, 0x0F, 0xE0, 0x80] = .ok (.bitmod 0x0F 0xE0 0x80) ∧
  decode [0x81] = .ok .rtsTxb0 ∧ decode [0x82] = .ok .rtsTxb1 ∧
  decode [0x84] = .ok .rtsTxb2 ∧ decode [0x87] = .ok .rtsAll

/-- R103: `Dec(Enc(I)) = I` for every well-formed `I`. -/
def Obligations.DecodeInvertsEncode : Prop := ∀ i : Instr, i.wf = true → decode (encode i) = .ok i

/-- R103: what decodes is well-formed, and `Enc(Dec(t)) = t` but for READ's filler bytes, which become 0x00. -/
def Obligations.EncodeInvertsDecode : Prop :=
  ∀ (t : List Byte) (i : Instr), decode t = .ok i →
    i.wf = true ∧
    (∀ a n, i = .read a n → t.take 2 = [0x03, BitVec.ofNat 8 a] ∧ t.length = 2 + n ∧ encode i = t.take 2 ++ zeros n) ∧
    ((∀ a n, i ≠ .read a n) → encode i = t)

/-- R101: the shapes that are an instruction are exactly these, and the encoder produces no other. -/
def Obligations.DecodeAcceptsExactlyShapes : Prop :=
  (∀ t : List Byte, (∃ i, decode t = .ok i) ↔
    (t = [0xC0] ∨ t = [0x81] ∨ t = [0x82] ∨ t = [0x84] ∨ t = [0x87] ∨
     (∃ a f, t = 0x03 :: a :: f ∧ 1 ≤ f.length ∧ a.toNat ≤ 0x7F ∧ a.toNat + f.length ≤ 0x80) ∨
     (∃ a d, t = 0x02 :: a :: d ∧ 1 ≤ d.length ∧ a.toNat ≤ 0x7F ∧ a.toNat + d.length ≤ 0x80) ∨
     (∃ a m v, t = [0x05, a, m, v] ∧ a.toNat ≤ 0x7F))) ∧
  (∀ i : Instr, i.wf = true → ∃ j, decode (encode i) = .ok j) ∧
  (∀ (i : Instr) (s : State), i.wf = false → ∃ r, exec i s = .refused r)

/-- R100, R147: bytes that are no instruction are refused by name, a reserved first byte among them, and the
encoder produces none. -/
def Obligations.InvalidTransactionRefused : Prop :=
  (∀ (s : State) (tx : List Byte) (why : DecodeError), s.wire = some tx → decode tx = .error why →
    step s = .refused (.invalidTransaction why)) ∧
  (∀ (b : Byte) (rest : List Byte), b ∉ ([0xC0, 0x03, 0x02, 0x05, 0x81, 0x82, 0x84, 0x87] : List Byte) →
    decode (b :: rest) = .error (.reservedOpcode b)) ∧
  (∀ i : Instr, ∃ b rest, encode i = b :: rest ∧ b ∈ ([0xC0, 0x03, 0x02, 0x05, 0x81, 0x82, 0x84, 0x87] : List Byte))

/-- The words of spec/opcode_table.json, short ones filled with zero bytes, and where the step takes them from
(notes/assumptions/2.md). -/
def Obligations.TableWordRuns : Prop :=
  decodeTableWord 8 0xC0 = some .reset ∧ decodeTableWord 8 0x03 = some (.read 0 1) ∧
  decodeTableWord 8 0x02 = some (.write 0 [0x00]) ∧ decodeTableWord 32 0x00012C05 = some (.bitmod 0x2C 0x01 0x00) ∧
  decodeTableWord 8 0x81 = some .rtsTxb0 ∧ decodeTableWord 8 0x82 = some .rtsTxb1 ∧
  decodeTableWord 8 0x84 = some .rtsTxb2 ∧ decodeTableWord 8 0x87 = some .rtsAll ∧
  ∀ (s : State) (nbits w : Nat) (i : Instr), decodeTableWord nbits w = some i →
    step (s.withFetchWord nbits w) = exec i (s.setWire none)

/-! ### One step -/

/-- R130: the step runs the instruction the offered bytes decode to; around `exec` it takes the bytes off the wire. -/
def Obligations.StepRunsDecoded : Prop :=
  ∀ (s : State) (tx : List Byte) (i : Instr), s.wire = some tx → decode tx = .ok i → step s = exec i (s.setWire none)

/-- R28, R105, R130: a command in progress offers its next instruction, encoded, and does nothing else; what the
instruction before it returned is discarded.
That offering is a step of its own is the model's choice (notes/assumptions/1.md). -/
def Obligations.BlockOffersInstruction : Prop :=
  ∀ (s : State) (i : Instr) (q : List Instr) (f : Finish), s.wire = none → s.job = some ⟨i :: q, f⟩ →
    step s = .next { s with wire := some (encode i), job := some ⟨q, f⟩, response := [] }

/-- R23, R300, R308: before construction every command but `construct` and the four pure functions is refused, whatever
its operands, and nothing else happens; an idle block holds no returned bytes (`NothingKeptBetweenCommands`). -/
def Obligations.HostGate : Prop :=
  ∀ (s : State) (c : Command) (es : List HostEvent), Presents c es s → s.constructed = false →
    (∀ osc br, c ≠ .construct osc br) → (∀ osc br, c ≠ .resolve osc br) → (∀ tp, c ≠ .packCNF tp) →
    (∀ h, c ≠ .decodeHeader h) → (∀ f, c ≠ .encodeFrame f) →
    step s = .next { s with host := es, response := [], outcomes := s.outcomes ++ [.refused .notConstructed] }

/-- R131, R300, R308: operands outside their sets are refused with the reason the rules name, before any wire activity;
nothing else happens; an idle block holds no returned bytes (`NothingKeptBetweenCommands`). -/
def Obligations.HostRefusals : Prop :=
  ∀ (s : State) (c : Command) (es : List HostEvent) (r : RefuseReason), Presents c es s → s.constructed = true →
    ((∃ a n, c = .readRegisters a n ∧ (if a > 0x7F then r = .badAddress else (n = 0 ∨ a + n > 0x80) ∧ r = .badLength)) ∨
     (∃ a d, c = .writeRegister a d ∧
       (if a > 0x7F then r = .badAddress else (d = [] ∨ a + d.length > 0x80) ∧ r = .badLength)) ∨
     (∃ a m v, c = .modifyRegister a m v ∧ a > 0x7F ∧ r = .badAddress) ∨
     (∃ n, c = .rts (.buffer n) ∧ n > 2 ∧ r = .badBuffer) ∨
     (∃ n, c = .receive n ∧ n > 1 ∧ r = .badBuffer) ∨
     (∃ n, c = .clearRxFlag n ∧ n > 1 ∧ r = .badBuffer) ∨
     (∃ f n, c = .send f n ∧ (if n > 2 then r = .badBuffer else f.wf = false ∧ r = .badFrame)) ∨
     (∃ f, c = .encodeFrame f ∧ f.wf = false ∧ r = .badFrame) ∨
     (∃ tp, c = .packCNF tp ∧ tp.wf = false ∧ r = .badTiming)) →
    step s = .next { s with host := es, response := [], outcomes := s.outcomes ++ [.refused r] }

/-- R23, R166, R176, R201, R207: the four pure functions are answered in one step, constructed or not, with no wire
traffic and no other change; an idle block holds no returned bytes (`NothingKeptBetweenCommands`). -/
def Obligations.PureFunctionsAnswer : Prop :=
  ∀ (s : State) (c : Command) (es : List HostEvent), Presents c es s → s.cs = .released → s.window = none →
    (∀ osc br, c = .resolve osc br → step s = .next { s with host := es, response := [], outcomes := s.outcomes ++
      [match resolve s.cfg.timingTable osc br with
        | some tp => .ok (.timing tp)
        | none => .error (.unsupportedTiming osc br)] }) ∧
    (∀ tp, c = .packCNF tp → tp.wf = true →
      step s = .next { s with host := es, response := [], outcomes := s.outcomes ++ [.ok (.cnf (cnfBytes tp))] }) ∧
    (∀ h, c = .decodeHeader h → step s = .next { s with host := es, response := [], outcomes := s.outcomes ++
      [match decodeHeader s.cfg h with
        | .ok r => .ok (.header r.1 r.2)
        | .error e => .error e] }) ∧
    (∀ f h p, c = .encodeFrame f → encodeFrame s.cfg f = some (h, p) →
      step s = .next { s with host := es, response := [], outcomes := s.outcomes ++ [.ok (.encoded h p)] })

/-- R31, R132, R134, R137, R140, R143: a raw command whose operands are in their sets issues its one instruction and
answers with the response of a READ, with nothing otherwise. -/
def Obligations.RawCommandIssuesOne : Prop :=
  ∀ (s : State) (c : Command) (i : Instr) (es : List HostEvent), Presents c es s → s.constructed = true → i.wf = true →
    (c = .reset ∧ i = .reset ∨ (∃ a n, c = .readRegisters a n ∧ i = .read a n) ∨
     (∃ a d, c = .writeRegister a d ∧ i = .write a d) ∨ (∃ a m v, c = .modifyRegister a m v ∧ i = .bitmod a m v) ∨
     c = .rts (.buffer 0) ∧ i = .rtsTxb0 ∨ c = .rts (.buffer 1) ∧ i = .rtsTxb1 ∨
     c = .rts (.buffer 2) ∧ i = .rtsTxb2 ∨ c = .rts .all ∧ i = .rtsAll) →
    ∃ f, Runs 2 s { s with host := es, wire := some (encode i), job := some ⟨[], f⟩, response := [] } ∧
      ∀ t, exec i { s with host := es, wire := none, job := some ⟨[], f⟩, response := [] } = .next t → t.job ≠ none →
        Runs 4 s { t with job := none, response := [], outcomes := t.outcomes ++
          [.ok (match i with
            | .read _ _ => .bytes t.response
            | _ => .unit)] }

/-! ### The wire instructions -/

/-- R134, R135, R66, R69, R63: READ returns the registers from `start` on, a free byte for an unnamed address, and
changes no register. That a free byte is numbered by a count in the state is the model's form (notes/assumptions/8.md). -/
def Obligations.ReadReturnsRegisters : Prop :=
  ∀ (s : State) (a n : Nat), Quiet s → a < 128 → 1 ≤ n → a + n ≤ 128 →
    ∃ t, exec (.read a n) s = .next t ∧ IssuedOnce (.read a n) s t ∧ SameTarget s t ∧ t.mem = s.mem ∧
      t.response.length = n ∧
      ∀ k, k < n →
        (isNamed s.cfg (a + k) = true → t.response[k]? = some (s.reg (a + k))) ∧
        (isNamed s.cfg (a + k) = false → ∃ j, s.draws ≤ j ∧ j < t.draws ∧ t.response[k]? = some (Config.freeByte j))

/-- R137, R138, R62, R67, R302: WRITE stores its bytes in ascending order; a byte for a protected register outside
Config is discarded and the run is marked. For ranges without the status and the control register and without an
unnamed address; those are `WriteControlRegister`, `WriteSplits` and `UnspecifiedWritesRefused`. That a discarded store marks the run and lets it go
on is the alternative of R302 the model takes (notes/assumptions/6.md). -/
def Obligations.WriteStoresBytes : Prop :=
  ∀ (s : State) (a : Nat) (d : List Byte), Quiet s → a < 128 → 1 ≤ d.length → a + d.length ≤ 128 →
    (∀ k, k < d.length → a + k ≠ s.cfg.statAddr ∧ a + k ≠ s.cfg.ctrlAddr ∧ isNamed s.cfg (a + k) = true) →
    ∃ t, exec (.write a d) s = .next t ∧ IssuedOnce (.write a d) s t ∧ t.response = [] ∧ t.mode = s.mode ∧
      t.requested = s.requested ∧ t.marks = s.marks ++ discards s.cfg s.mode a d.length ∧
      ∀ x, t.reg x =
        if a ≤ x ∧ x < a + d.length ∧ ¬ (isProtected s.cfg x = true ∧ s.mode ≠ .config) then d.getD (x - a) 0
        else s.reg x

/-- R137, R234: a byte written to the control register requests the mode whose pattern it leaves, which takes effect
if granted; a pattern of no mode is refused. -/
def Obligations.WriteControlRegister : Prop :=
  ∀ (s : State) (v : Byte), Quiet s → s.cfg.wf = true →
    (∀ req, v &&& 0xE0 = modePattern s.cfg req →
      ∃ t, exec (.write s.cfg.ctrlAddr [v]) s = .next t ∧ IssuedOnce (.write s.cfg.ctrlAddr [v]) s t ∧
        t.requested = s.requested ∧ t.marks = s.marks ∧ t.reg s.cfg.ctrlAddr = v ∧
        (if modeGrant s.cfg s.mode req then
          t.mode = req ∧ t.reg s.cfg.statAddr = (s.reg s.cfg.statAddr &&& 0x1F) ||| modePattern s.cfg req
         else t.mode = s.mode ∧ t.reg s.cfg.statAddr = s.reg s.cfg.statAddr) ∧
        ∀ x, x ≠ s.cfg.ctrlAddr → x ≠ s.cfg.statAddr → t.reg x = s.reg x) ∧
    ((∀ req, v &&& 0xE0 ≠ modePattern s.cfg req) →
      exec (.write s.cfg.ctrlAddr [v]) s = .refused (.noSuchMode (v &&& 0xE0)))

/-- R140, R141, R142, R302: BITMOD replaces the masked bits of one register; a protected register outside Config keeps
its value, and the run is marked if the mask selects a bit. The mode request is `BitmodModeRequest`, the status register
and the unnamed addresses are `UnspecifiedWritesRefused`. The mark is the model's form of R302 (notes/assumptions/6.md). -/
def Obligations.BitmodModifiesRegister : Prop :=
  ∀ (s : State) (a : Nat) (m v : Byte), Quiet s → s.cfg.wf = true → a < 128 → a ≠ s.cfg.statAddr →
    isNamed s.cfg a = true → (a = s.cfg.ctrlAddr → m &&& 0xE0 = 0) →
    ∃ t, exec (.bitmod a m v) s = .next t ∧ IssuedOnce (.bitmod a m v) s t ∧ t.response = [] ∧ t.mode = s.mode ∧
      t.requested = s.requested ∧
      (if isProtected s.cfg a = true ∧ s.mode ≠ .config then
        (∀ x, t.reg x = s.reg x) ∧ t.marks = s.marks ++ (if m = 0 then [] else [.protectedWrite a])
       else
        (∀ x, t.reg x = if x = a then (s.reg a &&& ~~~m) ||| (v &&& m) else s.reg x) ∧ t.marks = s.marks)

/-- R141, R232, R234: a BITMOD of the control register whose mask has a bit of the mode field requests the mode whose
pattern it leaves, which takes effect if granted; a pattern of no mode is refused. -/
def Obligations.BitmodModeRequest : Prop :=
  ∀ (s : State) (m v : Byte), Quiet s → s.cfg.wf = true → m &&& 0xE0 ≠ 0 →
    (∀ req, ((s.reg s.cfg.ctrlAddr &&& ~~~m) ||| (v &&& m)) &&& 0xE0 = modePattern s.cfg req →
      ∃ t, exec (.bitmod s.cfg.ctrlAddr m v) s = .next t ∧ IssuedOnce (.bitmod s.cfg.ctrlAddr m v) s t ∧
        t.response = [] ∧ t.requested = s.requested ∧ t.marks = s.marks ∧
        t.reg s.cfg.ctrlAddr = ((s.reg s.cfg.ctrlAddr &&& ~~~m) ||| (v &&& m)) ∧
        (if modeGrant s.cfg s.mode req then
          t.mode = req ∧ t.reg s.cfg.statAddr = (s.reg s.cfg.statAddr &&& 0x1F) ||| modePattern s.cfg req
         else t.mode = s.mode ∧ t.reg s.cfg.statAddr = s.reg s.cfg.statAddr) ∧
        ∀ x, x ≠ s.cfg.ctrlAddr → x ≠ s.cfg.statAddr → t.reg x = s.reg x) ∧
    ((∀ req, ((s.reg s.cfg.ctrlAddr &&& ~~~m) ||| (v &&& m)) &&& 0xE0 ≠ modePattern s.cfg req) →
      exec (.bitmod s.cfg.ctrlAddr m v) s =
        .refused (.noSuchMode (((s.reg s.cfg.ctrlAddr &&& ~~~m) ||| (v &&& m)) &&& 0xE0)))

/-- R61, R63, R301: a WRITE that reaches the status register or an unnamed address, or a BITMOD of one, is refused.
That R301's one refusal goes by a name of the model's for each of its cases, and that a BITMOD is refused under mask 0
too, are the model's own reading (DEDUCED, notes/assumptions/7.md). -/
def Obligations.UnspecifiedWritesRefused : Prop :=
  ∀ s : State, Quiet s → s.cfg.wf = true →
    (∀ (a k : Nat) (d : List Byte), (Instr.write a d).wf = true → k < d.length →
      (a + k = s.cfg.statAddr ∨ isNamed s.cfg (a + k) = false) → ∃ r, exec (.write a d) s = .refused r) ∧
    (∀ v, exec (.write s.cfg.statAddr [v]) s = .refused .statusWrite) ∧
    (∀ a v, a < 128 → isNamed s.cfg a = false → exec (.write a [v]) s = .refused (.unnamedWrite a)) ∧
    (∀ m v, exec (.bitmod s.cfg.statAddr m v) s = .refused .statusWrite) ∧
    (∀ a m v, a < 128 → isNamed s.cfg a = false → exec (.bitmod a m v) s = .refused (.unnamedWrite a))

/-- R131: `issue` of an instruction that is not well-formed is refused before any wire activity, in every state. -/
def Obligations.IllFormedRefused : Prop :=
  ∀ s : State,
    (∀ a n, a > 0x7F → exec (.read a n) s = .refused .badAddress) ∧
    (∀ a n, a ≤ 0x7F → n = 0 ∨ a + n > 0x80 → exec (.read a n) s = .refused .badLength) ∧
    (∀ a d, a > 0x7F → exec (.write a d) s = .refused .badAddress) ∧
    (∀ a d, a ≤ 0x7F → d = [] ∨ a + d.length > 0x80 → exec (.write a d) s = .refused .badLength) ∧
    (∀ a m v, a > 0x7F → exec (.bitmod a m v) s = .refused .badAddress)

/-- R132, R342: RESET puts every register at its image, the mode at PowerUp, shown in the status register, and ends every
request; the block is untouched. -/
def Obligations.ResetRestoresImage : Prop :=
  ∀ s : State, Quiet s → s.cfg.wf = true →
    ∃ t, exec .reset s = .next t ∧ IssuedOnce .reset s t ∧ t.response = [] ∧ t.mode = .powerUp ∧
      t.requested = ⟨false, false, false⟩ ∧ t.marks = s.marks ∧
      (∀ a, a ≠ s.cfg.statAddr → t.reg a = Config.resetImage a) ∧
      t.reg s.cfg.statAddr = (Config.resetImage s.cfg.statAddr &&& 0x1F) ||| s.cfg.patPowerUp

/-- R98, R143, R144: each RTS marks its transmit buffers as requested, keeps the other requests and changes no register. That
requests are three bits of the state is the model's choice (notes/assumptions/12.md). -/
def Obligations.RtsMarksRequests : Prop :=
  ∀ s : State, Quiet s →
    ∀ c ∈ [(Instr.rtsTxb0, TxRequests.mk true s.requested.txb1 s.requested.txb2),
        (Instr.rtsTxb1, TxRequests.mk s.requested.txb0 true s.requested.txb2),
        (Instr.rtsTxb2, TxRequests.mk s.requested.txb0 s.requested.txb1 true),
        (Instr.rtsAll, TxRequests.mk true true true)],
      ∃ t, exec c.1 s = .next t ∧ IssuedOnce c.1 s t ∧ t.response = [] ∧ t.requested = c.2 ∧
        t.mem = s.mem ∧ (∀ a, t.reg a = s.reg a) ∧ t.mode = s.mode ∧ t.marks = s.marks

/-- R148 against R132 to R144: the byte-serial decoder does to the target what the whole-transaction rules say, and the
response is theirs. -/
def Obligations.WireMatchesWhole : Prop :=
  ∀ (i : Instr) (s : State), Quiet s → i.wf = true →
    (∀ r, wholeEffect i s = .error r → exec i s = .refused r) ∧
    (∀ u, wholeEffect i s = .ok u →
      ∃ t, exec i s = .next t ∧ IssuedOnce i s t ∧ SameTarget u t ∧ t.mem = u.mem ∧ t.response = wholeResponse i s)

/-- R74, R75, R76, R141: whatever ENV does between the bytes, BITMOD modifies the register as it stands at its fourth
byte, and no change of ENV's is lost. ENV's steps before each byte are an input of the state (notes/assumptions/11.md). -/
def Obligations.BitmodUnderEnv : Prop :=
  ∀ (s : State) (a : Nat) (m v : Byte), s.spi = [] → s.cfg.wf = true → a < 128 → Writable s a →
    (a = s.cfg.ctrlAddr → m &&& 0xE0 = 0) →
    ∃ t, exec (.bitmod a m v) s = .next t ∧ t.mode = s.mode ∧ t.marks = s.marks ∧ t.cs = .released ∧ t.window = none ∧
      t.requested = (envSlot (envSlot (envSlot (envSlot s)))).requested ∧ t.env = s.env.drop 4 ∧
      ∀ x, t.reg x =
        if x = a then ((envSlot (envSlot (envSlot (envSlot s)))).reg a &&& ~~~m) ||| (v &&& m)
        else (envSlot (envSlot (envSlot (envSlot s)))).reg x

/-- R130, R145, R293, R296: when the exchange fails after `k` bytes the target has the effect of those bytes, no data is
returned, and TransportFailure ends the command with chip-select released and the block marked. That `k`
is given by the state is the model's choice (notes/assumptions/10.md), and so is the trace line of a failed exchange,
the bytes that reached the target and the bytes it drove (notes/assumptions/25.md). -/
def Obligations.FailedExchangeAppliesPrefix : Prop :=
  ∀ (i : Instr) (s u : State) (k : Nat) (vs : List Verdict), s.env = [] → s.spi = .fail k :: vs → i.wf = true →
    prefixEffect i k (s.setSpi vs) = .ok u →
    ∃ t, exec i s = .next t ∧ SameTarget u t ∧ t.cs = .released ∧ t.window = none ∧ t.needsReinit = true ∧
      t.job = none ∧ t.wire = none ∧ t.outcomes = s.outcomes ++ [.error (.transportFailure i)] ∧
      t.response = [] ∧ t.constructed = s.constructed ∧ t.tp = s.tp ∧ t.osc = s.osc ∧ t.bitrate = s.bitrate ∧
      t.cfg = s.cfg ∧ t.host = s.host ∧ t.spi = vs ∧ t.env = [] ∧
      ∃ rx : List Byte, rx.length = min k (encode i).length ∧ t.trace = s.trace ++ [⟨(encode i).take k, rx⟩]

/-- R32, R130, R293: a response of another length is TransportFailure. That the target then has the whole transaction
is the model's form of it (`Verdict.returns`, notes/assumptions/10.md), grounded on 95_test_vectors.md section 2.4, "as if
the exchange completed"; R293 refers to R145, which admits any prefix, and `FailedExchangeAppliesPrefix` covers every one. -/
def Obligations.WrongLengthIsFailure : Prop :=
  ∀ (i : Instr) (s u : State) (n : Nat) (vs : List Verdict), s.env = [] → s.spi = .returns n :: vs → i.wf = true →
    n ≠ (encode i).length → wholeEffect i (s.setSpi vs) = .ok u →
    ∃ t, exec i s = .next t ∧ SameTarget u t ∧ t.cs = .released ∧ t.window = none ∧ t.needsReinit = true ∧
      t.job = none ∧ t.wire = none ∧ t.outcomes = s.outcomes ++ [.error (.transportFailure i)] ∧
      t.response = [] ∧ t.constructed = s.constructed ∧ t.tp = s.tp

/-- R33, R130, R146, R352: with any ENV steps and any failure, an instruction is one exchange of a prefix of its bytes in
one chip-select window, released at the end; the block's record changes only by the error. What the trace line of a
failed exchange holds is the model's choice (notes/assumptions/25.md). -/
def Obligations.ExecReleasesChipSelect : Prop :=
  ∀ (i : Instr) (s t : State), exec i s = .next t →
    t.cs = .released ∧ t.window = none ∧ t.cfg = s.cfg ∧ t.constructed = s.constructed ∧ t.tp = s.tp ∧ t.osc = s.osc ∧
    t.bitrate = s.bitrate ∧ t.host = s.host ∧
    (∃ sent rx : List Byte, sent <+: encode i ∧ rx.length = sent.length ∧ t.trace = s.trace ++ [⟨sent, rx⟩]) ∧
    ((t.needsReinit = s.needsReinit ∧ t.job = s.job ∧ t.wire = s.wire ∧ t.outcomes = s.outcomes) ∨
     (t.needsReinit = true ∧ t.job = none ∧ t.wire = none ∧ t.response = [] ∧
       t.outcomes = s.outcomes ++ [.error (.transportFailure i)]))

/-! ### The laws of R149 -/

/-- R149 a: READ after WRITE returns the bytes written. A byte for the control register may request any mode, granted or
not, but that a change away from Config must not stand before a protected byte, which is then no longer writable (R62). -/
def Obligations.WriteThenRead : Prop :=
  ∀ (s : State) (a : Nat) (d : List Byte), Quiet s → s.cfg.wf = true → a < 128 → 1 ≤ d.length → a + d.length ≤ 128 →
    (∀ k, k < d.length → Writable s (a + k) ∧
      (a + k = s.cfg.ctrlAddr → ∃ req, d.getD k 0 &&& 0xE0 = modePattern s.cfg req ∧
        (modeGrant s.cfg s.mode req = true → req ≠ s.mode →
          ∀ j, k < j → j < d.length → isProtected s.cfg (a + j) = false))) →
    ∃ t u, exec (.write a d) s = .next t ∧ exec (.read a d.length) t = .next u ∧ u.response = d

/-- R149 b: one WRITE leaves the registers two consecutive WRITEs of its parts leave, protection, mode requests and
marks included. -/
def Obligations.WriteSplits : Prop :=
  ∀ (s t : State) (a : Nat) (d e : List Byte), Quiet s → (Instr.write a (d ++ e)).wf = true → d ≠ [] → e ≠ [] →
    exec (.write a (d ++ e)) s = .next t →
    ∃ u v, exec (.write a d) s = .next u ∧ exec (.write (a + d.length) e) u = .next v ∧ SameTarget t v

/-- R149 c, R68: a READ of named registers returns what two READs of its parts return. -/
def Obligations.ReadSplits : Prop :=
  ∀ (s : State) (a m n : Nat), Quiet s → 1 ≤ m → 1 ≤ n → a + m + n ≤ 128 → (∀ k, k < m + n → isNamed s.cfg (a + k) = true) →
    ∃ t u v, exec (.read a (m + n)) s = .next t ∧ exec (.read a m) s = .next u ∧ exec (.read (a + m) n) u = .next v ∧
      t.response = u.response ++ v.response

/-- R149 d, R142: BITMOD with mask 0xFF is a one-byte WRITE, where it completes and where it is refused. -/
def Obligations.BitmodFullMaskIsWrite : Prop :=
  ∀ (s : State) (a : Nat) (v : Byte), Quiet s → a < 128 →
    (∃ t u, exec (.bitmod a 0xFF v) s = .next t ∧ exec (.write a [v]) s = .next u ∧ SameTarget t u) ∨
    (∃ r, exec (.bitmod a 0xFF v) s = .refused r ∧ exec (.write a [v]) s = .refused r)

/-- R149 e, R142: READ after BITMOD returns the modified byte, and the same BITMOD again changes nothing. -/
def Obligations.BitmodThenRead : Prop :=
  ∀ (s : State) (a : Nat) (m v : Byte), Quiet s → s.cfg.wf = true → a < 128 → Writable s a →
    (a = s.cfg.ctrlAddr → m &&& 0xE0 ≠ 0 →
      ∃ req, ((s.reg a &&& ~~~m) ||| (v &&& m)) &&& 0xE0 = modePattern s.cfg req) →
    ∃ t u w, exec (.bitmod a m v) s = .next t ∧
      exec (.read a 1) t = .next u ∧ u.response = [(s.reg a &&& ~~~m) ||| (v &&& m)] ∧
      exec (.bitmod a m v) t = .next w ∧ SameTarget t w

/-! ### The Frame Codec and the Timing Resolver -/

/-- R180: the two round-trip laws, for both places of the remote-request flag. -/
def Obligations.CodecRoundTrips : Prop :=
  ∀ c : Cfg, c.rtrByte = 0 ∨ c.rtrByte = 5 →
    (∀ f : CanFrame, f.wf = true →
      ∃ h, encodeFrame c f = some (h, f.data) ∧ decodeHeader c h = .ok (f.identifier, f.data.length)) ∧
    (∀ h : Header, (h.dlc &&& 0x0F).toNat ≤ 8 →
      ∃ id, decodeHeader c h = .ok (id, (h.dlc &&& 0x0F).toNat) ∧
        ∀ data : List Byte, data.length = (h.dlc &&& 0x0F).toNat →
          ∃ k, encodeFrame c ⟨id, data⟩ = some (k, data) ∧
            headerBytes k =
              [if c.rtrByte = 0 then h.ctrl &&& 0x40 else 0x00, h.idHigh,
               h.idLow &&& (if h.idLow.getLsbD 3 then 0xEB else 0xE0),
               if h.idLow.getLsbD 3 then h.eidHigh else 0x00,
               if h.idLow.getLsbD 3 then h.eidLow else 0x00,
               h.dlc &&& (if c.rtrByte = 0 then 0x0F else 0x4F)])

/-- R163 to R169: every bit of a decoded identifier word and the length, for every header; 9 to 15 is the violation, and
what decodes can be encoded again. -/
def Obligations.HeaderDecodesBitByBit : Prop :=
  ∀ (c : Cfg) (h : Header), c.rtrByte = 0 ∨ c.rtrByte = 5 →
    ((h.dlc &&& 0x0F).toNat > 8 → decodeHeader c h = .error (.dlcRange (h.dlc &&& 0x0F).toNat)) ∧
    ((h.dlc &&& 0x0F).toNat ≤ 8 →
      ∃ id : Id32, decodeHeader c h = .ok (id, (h.dlc &&& 0x0F).toNat) ∧
        id.getLsbD 31 = h.idLow.getLsbD 3 ∧
        id.getLsbD 30 = (if c.rtrByte = 0 then h.ctrl else h.dlc).getLsbD 6 ∧
        id.getLsbD 29 = false ∧
        (if h.idLow.getLsbD 3 then
          id.extractLsb' 21 8 = h.idHigh ∧ id.extractLsb' 18 3 = h.idLow.extractLsb' 5 3 ∧
          id.extractLsb' 16 2 = h.idLow.extractLsb' 0 2 ∧ id.extractLsb' 8 8 = h.eidHigh ∧ id.extractLsb' 0 8 = h.eidLow
         else
          id.extractLsb' 11 18 = 0 ∧ id.extractLsb' 3 8 = h.idHigh ∧ id.extractLsb' 0 3 = h.idLow.extractLsb' 5 3) ∧
        ∀ data : List Byte, data.length ≤ 8 → CanFrame.wf ⟨id, data⟩ = true)

/-- R201, R202: the resolver returns the tuple of the first row with both keys, nothing where no row has both, and MF's
row is in every legal table. -/
def Obligations.ResolveFirstMatch : Prop :=
  ∀ (table : List TimingRow) (osc br : Nat),
    (∀ tp, resolve table osc br = some tp ↔
      ∃ pre r post, table = pre ++ r :: post ∧ r.osc = osc ∧ r.bitrate = br ∧ r.tp = tp ∧
        ∀ q ∈ pre, ¬ (q.osc = osc ∧ q.bitrate = br)) ∧
    (resolve table osc br = none ↔ ∀ q ∈ table, ¬ (q.osc = osc ∧ q.bitrate = br)) ∧
    (∀ c : Cfg, c.wf = true → resolve c.timingTable 8000000 500000 = some ⟨1, 2, 3, 2, 1⟩)

/-- R207, R208, R209, R211: the three bytes bit by bit, their addresses, the refusal, and the inverse. -/
def Obligations.PackedBytesBitByBit : Prop :=
  ∀ tp : TimingParameters,
    (tp.wf = false → packCNF tp = none) ∧
    (tp.wf = true → ∃ c, packCNF tp = some c ∧
      c.cnf1.getLsbD 7 = false ∧ c.cnf1.getLsbD 6 = true ∧ c.cnf1.extractLsb' 3 3 = 0 ∧
      (c.cnf1.extractLsb' 0 3).toNat = tp.phaseSeg2 - 1 ∧
      c.cnf2.getLsbD 7 = true ∧ c.cnf2.getLsbD 6 = false ∧ (c.cnf2.extractLsb' 3 3).toNat = tp.phaseSeg1 - 1 ∧
      (c.cnf2.extractLsb' 0 3).toNat = tp.propSeg - 1 ∧
      (c.cnf3.extractLsb' 6 2).toNat = tp.sjw - 1 ∧ c.cnf3.extractLsb' 3 3 = 0 ∧
      (c.cnf3.extractLsb' 0 3).toNat = tp.prescaler - 1 ∧
      cnfWrites c = [.write 0x2A [c.cnf3], .write 0x29 [c.cnf2], .write 0x28 [c.cnf1]] ∧
      tp.prescaler = (c.cnf3 &&& 0x07).toNat + 1 ∧ tp.sjw = (c.cnf3 >>> 6).toNat + 1 ∧
      tp.propSeg = (c.cnf2 &&& 0x07).toNat + 1 ∧ tp.phaseSeg1 = ((c.cnf2 >>> 3) &&& 0x07).toNat + 1 ∧
      tp.phaseSeg2 = (c.cnf1 &&& 0x07).toNat + 1)

/-! ### The Mode Controller -/

/-- R240 to R247, R250: `construct` with a supported pair issues the 19 instructions and reaches the post-condition; one
step to accept, two for each instruction, one to answer; the number of steps is the model's choice (notes/assumptions/1.md). -/
def Obligations.ConstructBringsUp : Prop :=
  ∀ (s : State) (osc br : Nat) (tp : TimingParameters) (es : List HostEvent),
    Presents (.construct osc br) es s → Quiet s → s.cfg.wf = true → resolve s.cfg.timingTable osc br = some tp →
    modeGrant s.cfg .config .normal = true →
    ∃ t cnf, packCNF tp = some cnf ∧ Runs 40 s t ∧ Answered (.ok .unit) es s t ∧ BroughtUp cnf s t ∧
      t.constructed = true ∧ t.needsReinit = false ∧ t.tp = some tp ∧ t.osc = some osc ∧ t.bitrate = some br

/-- R248, R250: `reinit` runs the same 19 instructions with the stored parameters. -/
def Obligations.ReinitBringsUp : Prop :=
  ∀ (s : State) (tp : TimingParameters) (es : List HostEvent),
    Presents .reinit es s → Quiet s → s.cfg.wf = true → s.constructed = true → s.tp = some tp → tp.wf = true →
    modeGrant s.cfg .config .normal = true →
    ∃ t cnf, packCNF tp = some cnf ∧ Runs 40 s t ∧ Answered (.ok .unit) es s t ∧ BroughtUp cnf s t ∧
      t.constructed = true ∧ t.needsReinit = false ∧ t.tp = s.tp ∧ t.osc = s.osc ∧ t.bitrate = s.bitrate

/-- R240, R249 a, R292: a pair the table does not have is answered at once, with block, target and wire as they were. -/
def Obligations.UnsupportedTimingChangesNothing : Prop :=
  ∀ (s : State) (osc br : Nat) (es : List HostEvent), Presents (.construct osc br) es s →
    (∀ r ∈ s.cfg.timingTable, ¬ (r.osc = osc ∧ r.bitrate = br)) →
    ∃ t, step s = .next t ∧ Answered (.error (.unsupportedTiming osc br)) es s t ∧ SameInstance s t ∧
      SameTarget s t ∧ t.mem = s.mem ∧ t.trace = s.trace

/-- R232, R233, R238: `setMode(m)` sends its one BITMOD, and `status()` after it returns `m` when the mode is granted. -/
def Obligations.SetModeThenStatus : Prop :=
  ∀ (s : State) (m : OperatingMode) (es : List HostEvent),
    Presents (.setMode m) (.command .status :: es) s → Quiet s → s.cfg.wf = true → s.constructed = true →
    modeGrant s.cfg s.mode m = true →
    ∃ t, Runs 8 s t ∧ Idle t ∧ t.host = es ∧ t.mode = m ∧ SameInstance s t ∧
      t.outcomes = s.outcomes ++
        [.ok .unit, .ok (.status ((s.reg s.cfg.statAddr &&& s.cfg.icodMask) >>> s.cfg.icodShift) m)] ∧
      Sent [.bitmod s.cfg.ctrlAddr 0xE0 (modePattern s.cfg m), .read s.cfg.statAddr 1] s t ∧
      t.reg s.cfg.ctrlAddr = (s.reg s.cfg.ctrlAddr &&& 0x1F) ||| modePattern s.cfg m ∧
      t.reg s.cfg.statAddr = (s.reg s.cfg.statAddr &&& 0x1F) ||| modePattern s.cfg m ∧
      (∀ x, x ≠ s.cfg.ctrlAddr → x ≠ s.cfg.statAddr → t.reg x = s.reg x) ∧
      t.requested = s.requested ∧ t.marks = s.marks

/-- R236, R237, R294: `status` splits the byte it reads; a pattern of no mode is UnknownMode with that byte. -/
def Obligations.StatusSplitsByte : Prop :=
  ∀ (s : State) (es : List HostEvent), Presents .status es s → Quiet s → s.cfg.wf = true → s.constructed = true →
    ∃ t, Runs 4 s t ∧ SameInstance s t ∧ SameTarget s t ∧ Sent [.read s.cfg.statAddr 1] s t ∧
      (∀ m, s.reg s.cfg.statAddr &&& 0xE0 = modePattern s.cfg m →
        Answered (.ok (.status ((s.reg s.cfg.statAddr &&& s.cfg.icodMask) >>> s.cfg.icodShift) m)) es s t) ∧
      ((∀ m, s.reg s.cfg.statAddr &&& 0xE0 ≠ modePattern s.cfg m) →
        Answered (.error (.unknownMode (s.reg s.cfg.statAddr))) es s t)

/-! ### The Receive Dispatcher and the transmit path -/

/-- R266, R267 f: with neither receive flag set `poll` answers None after one READ, whatever the other flags. -/
def Obligations.PollWithoutFlag : Prop :=
  ∀ (s : State) (es : List HostEvent), Presents .poll es s → Quiet s → s.constructed = true →
    s.reg 0x2C &&& s.cfg.rx0if = 0 → s.reg 0x2C &&& s.cfg.rx1if = 0 →
    ∃ t, Runs 4 s t ∧ Answered (.ok .noFrame) es s t ∧ SameInstance s t ∧ SameTarget s t ∧ Sent [.read 0x2C 1] s t

/-- R262, R264, R266, R267, R268: `poll` returns the frame of the first full buffer, buffer 0 before buffer 1, read
whole before its flag, and only it, is cleared. -/
def Obligations.PollServesBuffer : Prop :=
  ∀ (s : State) (es : List HostEvent) (base : Nat) (flag : Byte) (id : Id32) (dlc : Nat),
    Presents .poll es s → Quiet s → s.cfg.wf = true → s.constructed = true →
    ((s.reg 0x2C &&& s.cfg.rx0if ≠ 0 ∧ base = 0x60 ∧ flag = s.cfg.rx0if) ∨
     (s.reg 0x2C &&& s.cfg.rx0if = 0 ∧ s.reg 0x2C &&& s.cfg.rx1if ≠ 0 ∧ base = 0x70 ∧ flag = s.cfg.rx1if)) →
    decodeHeader s.cfg (headerAt s base) = .ok (id, dlc) →
    ∃ t, Runs (if dlc = 0 then 10 else 13) s t ∧ Answered (.ok (.frame ⟨id, regsAt s (base + 6) dlc⟩)) es s t ∧
      SameInstance s t ∧ t.mode = s.mode ∧ t.requested = s.requested ∧ t.marks = s.marks ∧
      (∀ x, t.reg x = if x = 0x2C then s.reg 0x2C &&& ~~~flag else s.reg x) ∧
      Sent ([.read 0x2C 1, .read base 6] ++ (if dlc = 0 then [] else [.read (base + 6) dlc]) ++
        [.bitmod 0x2C flag 0x00]) s t

/-- R262, R269, R294: a data length of 9 to 15 in the served buffer is the violation; no payload is read, the flag stays. -/
def Obligations.PollBadDlcKeepsFlag : Prop :=
  ∀ (s : State) (es : List HostEvent) (base : Nat),
    Presents .poll es s → Quiet s → s.constructed = true →
    ((s.reg 0x2C &&& s.cfg.rx0if ≠ 0 ∧ base = 0x60) ∨
     (s.reg 0x2C &&& s.cfg.rx0if = 0 ∧ s.reg 0x2C &&& s.cfg.rx1if ≠ 0 ∧ base = 0x70)) →
    (s.reg (base + 5) &&& 0x0F).toNat > 8 →
    ∃ t, Runs 7 s t ∧ Answered (.error (.dlcRange (s.reg (base + 5) &&& 0x0F).toNat)) es s t ∧ SameInstance s t ∧
      SameTarget s t ∧ Sent [.read 0x2C 1, .read base 6] s t

/-- R38, R76, R262, R263 d: while a buffer's flag is set `receive` returns its frame whole, whatever ENV does between the
bytes of its READs, and clears nothing. -/
def Obligations.ReceiveConsistentUnderEnv : Prop :=
  ∀ (s : State) (es : List HostEvent) (n base : Nat) (flag : Byte) (id : Id32) (dlc : Nat),
    Presents (.receive n) es s → s.spi = [] → s.cfg.wf = true → s.constructed = true →
    (n = 0 ∧ base = 0x60 ∧ flag = s.cfg.rx0if ∨ n = 1 ∧ base = 0x70 ∧ flag = s.cfg.rx1if) →
    s.reg 0x2C &&& flag ≠ 0 → decodeHeader s.cfg (headerAt s base) = .ok (id, dlc) →
    ∃ t, Runs (if dlc = 0 then 4 else 7) s t ∧ Idle t ∧ SameInstance s t ∧ t.mode = s.mode ∧
      t.outcomes = s.outcomes ++ [.ok (.frame ⟨id, regsAt s (base + 6) dlc⟩)] ∧
      t.reg 0x2C &&& flag ≠ 0 ∧ (∀ k, k < 14 → t.reg (base + k) = s.reg (base + k)) ∧
      Sent (.read base 6 :: (if dlc = 0 then [] else [.read (base + 6) dlc])) s t

/-- R264, R265: `clearRxFlag` clears its one flag, set or not, and keeps every other bit of the register. -/
def Obligations.ClearRxFlagClearsOne : Prop :=
  ∀ (s : State) (es : List HostEvent) (n : Nat) (flag : Byte),
    Presents (.clearRxFlag n) es s → Quiet s → s.cfg.wf = true → s.constructed = true →
    (n = 0 ∧ flag = s.cfg.rx0if ∨ n = 1 ∧ flag = s.cfg.rx1if) →
    ∃ t, Runs 4 s t ∧ Answered (.ok .unit) es s t ∧ SameInstance s t ∧ t.mode = s.mode ∧ t.requested = s.requested ∧
      t.marks = s.marks ∧ (∀ x, t.reg x = if x = 0x2C then s.reg 0x2C &&& ~~~flag else s.reg x) ∧
      Sent [.bitmod 0x2C flag 0x00] s t

/-- R272, R273: `send` writes the encoded header, then the payload if there is one, then requests its buffer; the data
bytes past the payload and every other register keep their values. -/
def Obligations.SendLoadsBuffer : Prop :=
  ∀ (s : State) (es : List HostEvent) (f : CanFrame) (n : Nat) (h : Header) (base : Nat) (rts : Instr) (req : TxRequests),
    Presents (.send f n) es s → Quiet s → s.cfg.wf = true → s.constructed = true → encodeFrame s.cfg f = some (h, f.data) →
    (n = 0 ∧ base = 0x30 ∧ rts = .rtsTxb0 ∧ req = { s.requested with txb0 := true } ∨
     n = 1 ∧ base = 0x40 ∧ rts = .rtsTxb1 ∧ req = { s.requested with txb1 := true } ∨
     n = 2 ∧ base = 0x50 ∧ rts = .rtsTxb2 ∧ req = { s.requested with txb2 := true }) →
    ∃ t, Runs (if f.data = [] then 6 else 8) s t ∧ Answered (.ok .unit) es s t ∧ SameInstance s t ∧ t.mode = s.mode ∧
      t.marks = s.marks ∧ t.requested = req ∧ headerAt t base = h ∧ regsAt t (base + 6) f.data.length = f.data ∧
      (∀ x, x < base ∨ base + 6 + f.data.length ≤ x → t.reg x = s.reg x) ∧
      Sent (.write base (headerBytes h) :: (if f.data = [] then [] else [.write (base + 6) f.data]) ++ [rts]) s t

/-! ### The environment -/

/-- R38, R39, R58, R305: an ENV step changes only volatile registers, never the mode or its bits in the status register,
clears no bit of INTF, and fills a receive buffer, flag and block together, only while its flag is clear.
That ENV's steps are these eight is the model's choice (notes/assumptions/11.md). -/
def Obligations.EnvStepRespectsVolatile : Prop :=
  ∀ (s : State) (e : EnvStep), s.cfg.wf = true →
    (∀ a, isVolatile s a = false → (envStep s e).reg a = s.reg a) ∧
    (envStep s e).mode = s.mode ∧ (envStep s e).reg s.cfg.statAddr &&& 0xE0 = s.reg s.cfg.statAddr &&& 0xE0 ∧
    s.reg 0x2C &&& ~~~ (envStep s e).reg 0x2C = 0 ∧
    (∀ block, e = .fillRx .rxb0 block → block.length = 14 → s.reg 0x2C &&& s.cfg.rx0if = 0 →
      regsAt (envStep s e) 0x60 14 = block ∧ (envStep s e).reg 0x2C = s.reg 0x2C ||| s.cfg.rx0if) ∧
    (∀ block, e = .fillRx .rxb1 block → block.length = 14 → s.reg 0x2C &&& s.cfg.rx1if = 0 →
      regsAt (envStep s e) 0x70 14 = block ∧ (envStep s e).reg 0x2C = s.reg 0x2C ||| s.cfg.rx1if)

/-! ### Every step -/

/-- The invariant is kept by every step from every state that meets it. -/
def Obligations.StepKeepsInvariant : Prop := ∀ s t : State, MachineInv s → step s = .next t → MachineInv t

/-- R32, R40: from a state that meets the invariant no step ends in a fault, so only the spec's refusals stop a run. -/
def Obligations.NoFaultUnderInvariant : Prop := ∀ (s : State) (f : Fault), MachineInv s → step s ≠ .fault f

/-- R35, R230, R235: the complete set of causes of a mode change. -/
def Obligations.ModeChangesOnlyOnRequest : Prop :=
  ∀ s t : State, s.cfg.wf = true → step s = .next t → t.mode ≠ s.mode →
    (t.mode = .powerUp ∧ Idle s ∧ ∃ es, s.host = .targetPowerUp :: es) ∨
    (∃ tx i, s.wire = some tx ∧ decode tx = .ok i ∧
      ((i = .reset ∧ t.mode = .powerUp) ∨
       (requestsMode s.cfg i = true ∧ modeGrant s.cfg s.mode t.mode = true ∧
        t.reg s.cfg.ctrlAddr &&& 0xE0 = modePattern s.cfg t.mode)))

/-- R62, R310: a protected register changes only by a store of the host in Config mode, by RESET or by power-up. A WRITE
that passes through the control register may enter or leave Config on its way. -/
def Obligations.ProtectedChangesOnlyInConfig : Prop :=
  ∀ (s t : State) (a : Nat), s.cfg.wf = true → step s = .next t → isProtected s.cfg a = true → t.reg a ≠ s.reg a →
    (Idle s ∧ ∃ es, s.host = .targetPowerUp :: es) ∨
    (∃ tx i, s.wire = some tx ∧ decode tx = .ok i ∧
      (i = .reset ∨ (storesTo i a = true ∧ (s.mode = .config ∨ t.mode = .config))))

/-- R22 to R26, R341: who writes the block's record. -/
def Obligations.BlockRecordWriters : Prop :=
  ∀ s t : State, step s = .next t →
    (t.tp ≠ s.tp ∨ t.osc ≠ s.osc ∨ t.bitrate ≠ s.bitrate →
      Idle s ∧ ((∃ es, s.host = .blockPowerUp :: es ∧ t.tp = none ∧ t.osc = none ∧ t.bitrate = none) ∨
       (∃ es osc br tp, s.host = .command (.construct osc br) :: es ∧ resolve s.cfg.timingTable osc br = some tp ∧
         t.tp = some tp ∧ t.osc = some osc ∧ t.bitrate = some br ∧ t.constructed = false))) ∧
    (s.constructed = false → t.constructed = true → s.wire = none ∧ s.job = some ⟨[], .construct⟩) ∧
    (s.needsReinit = false → t.needsReinit = true →
      ∃ i, s.wire ≠ none ∧ t.outcomes = s.outcomes ++ [.error (.transportFailure i)]) ∧
    (s.needsReinit = true → t.needsReinit = false →
      s.wire = none ∧ (s.job = some ⟨[], .construct⟩ ∨ s.job = some ⟨[], .reinit⟩ ∨
        ∃ es, s.job = none ∧ s.host = .blockPowerUp :: es))

/-- R37, R265, R304, R305: a receive flag that is set is cleared only by the host's own store to INTF, by RESET or by
power-up; no ENV step and no READ clears it. -/
def Obligations.RxFlagClearedOnlyByHost : Prop :=
  ∀ (s t : State) (flag : Byte), s.cfg.wf = true → step s = .next t → flag = s.cfg.rx0if ∨ flag = s.cfg.rx1if →
    s.reg 0x2C &&& flag ≠ 0 → t.reg 0x2C &&& flag = 0 →
    (Idle s ∧ ∃ es, s.host = .targetPowerUp :: es) ∨
    (∃ tx i, s.wire = some tx ∧ decode tx = .ok i ∧ mayClearFlag flag i = true)

/-- R8, R341: the parameters never change. The other clauses are about fields of the model's own, which the spec does not
give: what HOST and the wire have been shown and the marks of the run (DESIGN CHOICE, notes/assumptions/17.md) only grow,
and so does the count of free bytes drawn (notes/assumptions/8.md and 17.md). -/
def Obligations.ObserversOnlyGrow : Prop :=
  ∀ s t : State, step s = .next t →
    t.cfg = s.cfg ∧ s.outcomes <+: t.outcomes ∧ s.trace <+: t.trace ∧ s.marks <+: t.marks ∧ s.draws ≤ t.draws

/-- R22, R28, R130: what is kept of an exchange. The block's move takes what the last instruction returned and leaves
none of it; an executed instruction's bytes are off the wire; and whatever ends a command leaves no command in
progress, nothing offered and nothing returned. That the returned bytes stand in the state from the instruction's step
to the block's next move is the model's form (notes/assumptions/17.md). -/
def Obligations.ExchangeNotKept : Prop :=
  ∀ s t : State, step s = .next t →
    (s.wire = none → t.response = []) ∧ (s.wire ≠ none → t.wire = none) ∧
    (t.outcomes ≠ s.outcomes → Idle t ∧ t.response = [])

/-- R22, R28, R341: between commands nothing is offered to the SPI port and nothing of an exchange is held; every step
keeps it so. -/
def Obligations.NothingKeptBetweenCommands : Prop :=
  NothingKept State.reset ∧ ∀ s t : State, NothingKept s → step s = .next t → NothingKept t

end Statements
end

