-- ==== Sys2Proof/Laws/State.lean ====
section
/-! SUPPORT. One lemma per field per named update of the state, each true by unfolding, so that no later proof
unfolds a record update. -/

namespace Sys2Proof.Machine

/-- The state with another chip-select line, window and count of free bytes: what an exchange changes besides the
target's registers. -/
def rewindow (c : ChipSelect) (w : Option Window) (n : Nat) (s : State) : State :=
  { s with cs := c, window := w, draws := n }

/-! ### rewindow -/

@[simp] theorem rewindow_cfg (c : ChipSelect) (w : Option Window) (n : Nat) (s : State) : (rewindow c w n s).cfg = s.cfg := rfl
@[simp] theorem rewindow_constructed (c : ChipSelect) (w : Option Window) (n : Nat) (s : State) : (rewindow c w n s).constructed = s.constructed := rfl
@[simp] theorem rewindow_tp (c : ChipSelect) (w : Option Window) (n : Nat) (s : State) : (rewindow c w n s).tp = s.tp := rfl
@[simp] theorem rewindow_osc (c : ChipSelect) (w : Option Window) (n : Nat) (s : State) : (rewindow c w n s).osc = s.osc := rfl
@[simp] theorem rewindow_bitrate (c : ChipSelect) (w : Option Window) (n : Nat) (s : State) : (rewindow c w n s).bitrate = s.bitrate := rfl
@[simp] theorem rewindow_needsReinit (c : ChipSelect) (w : Option Window) (n : Nat) (s : State) : (rewindow c w n s).needsReinit = s.needsReinit := rfl
@[simp] theorem rewindow_cs (c : ChipSelect) (w : Option Window) (n : Nat) (s : State) : (rewindow c w n s).cs = c := rfl
@[simp] theorem rewindow_job (c : ChipSelect) (w : Option Window) (n : Nat) (s : State) : (rewindow c w n s).job = s.job := rfl
@[simp] theorem rewindow_wire (c : ChipSelect) (w : Option Window) (n : Nat) (s : State) : (rewindow c w n s).wire = s.wire := rfl
@[simp] theorem rewindow_response (c : ChipSelect) (w : Option Window) (n : Nat) (s : State) : (rewindow c w n s).response = s.response := rfl
@[simp] theorem rewindow_mem (c : ChipSelect) (w : Option Window) (n : Nat) (s : State) : (rewindow c w n s).mem = s.mem := rfl
@[simp] theorem rewindow_mode (c : ChipSelect) (w : Option Window) (n : Nat) (s : State) : (rewindow c w n s).mode = s.mode := rfl
@[simp] theorem rewindow_window (c : ChipSelect) (w : Option Window) (n : Nat) (s : State) : (rewindow c w n s).window = w := rfl
@[simp] theorem rewindow_requested (c : ChipSelect) (w : Option Window) (n : Nat) (s : State) : (rewindow c w n s).requested = s.requested := rfl
@[simp] theorem rewindow_host (c : ChipSelect) (w : Option Window) (n : Nat) (s : State) : (rewindow c w n s).host = s.host := rfl
@[simp] theorem rewindow_spi (c : ChipSelect) (w : Option Window) (n : Nat) (s : State) : (rewindow c w n s).spi = s.spi := rfl
@[simp] theorem rewindow_env (c : ChipSelect) (w : Option Window) (n : Nat) (s : State) : (rewindow c w n s).env = s.env := rfl
@[simp] theorem rewindow_outcomes (c : ChipSelect) (w : Option Window) (n : Nat) (s : State) : (rewindow c w n s).outcomes = s.outcomes := rfl
@[simp] theorem rewindow_trace (c : ChipSelect) (w : Option Window) (n : Nat) (s : State) : (rewindow c w n s).trace = s.trace := rfl
@[simp] theorem rewindow_marks (c : ChipSelect) (w : Option Window) (n : Nat) (s : State) : (rewindow c w n s).marks = s.marks := rfl
@[simp] theorem rewindow_draws (c : ChipSelect) (w : Option Window) (n : Nat) (s : State) : (rewindow c w n s).draws = n := rfl

/-! ### setWindow -/

@[simp] theorem setWindow_cfg (w : Option Window) (s : State) : (s.setWindow w).cfg = s.cfg := rfl
@[simp] theorem setWindow_constructed (w : Option Window) (s : State) : (s.setWindow w).constructed = s.constructed := rfl
@[simp] theorem setWindow_tp (w : Option Window) (s : State) : (s.setWindow w).tp = s.tp := rfl
@[simp] theorem setWindow_osc (w : Option Window) (s : State) : (s.setWindow w).osc = s.osc := rfl
@[simp] theorem setWindow_bitrate (w : Option Window) (s : State) : (s.setWindow w).bitrate = s.bitrate := rfl
@[simp] theorem setWindow_needsReinit (w : Option Window) (s : State) : (s.setWindow w).needsReinit = s.needsReinit := rfl
@[simp] theorem setWindow_cs (w : Option Window) (s : State) : (s.setWindow w).cs = s.cs := rfl
@[simp] theorem setWindow_job (w : Option Window) (s : State) : (s.setWindow w).job = s.job := rfl
@[simp] theorem setWindow_wire (w : Option Window) (s : State) : (s.setWindow w).wire = s.wire := rfl
@[simp] theorem setWindow_response (w : Option Window) (s : State) : (s.setWindow w).response = s.response := rfl
@[simp] theorem setWindow_mem (w : Option Window) (s : State) : (s.setWindow w).mem = s.mem := rfl
@[simp] theorem setWindow_mode (w : Option Window) (s : State) : (s.setWindow w).mode = s.mode := rfl
@[simp] theorem setWindow_window (w : Option Window) (s : State) : (s.setWindow w).window = w := rfl
@[simp] theorem setWindow_requested (w : Option Window) (s : State) : (s.setWindow w).requested = s.requested := rfl
@[simp] theorem setWindow_host (w : Option Window) (s : State) : (s.setWindow w).host = s.host := rfl
@[simp] theorem setWindow_spi (w : Option Window) (s : State) : (s.setWindow w).spi = s.spi := rfl
@[simp] theorem setWindow_env (w : Option Window) (s : State) : (s.setWindow w).env = s.env := rfl
@[simp] theorem setWindow_outcomes (w : Option Window) (s : State) : (s.setWindow w).outcomes = s.outcomes := rfl
@[simp] theorem setWindow_trace (w : Option Window) (s : State) : (s.setWindow w).trace = s.trace := rfl
@[simp] theorem setWindow_marks (w : Option Window) (s : State) : (s.setWindow w).marks = s.marks := rfl
@[simp] theorem setWindow_draws (w : Option Window) (s : State) : (s.setWindow w).draws = s.draws := rfl

/-! ### setWire -/

@[simp] theorem setWire_cfg (tx : Option (List Byte)) (s : State) : (s.setWire tx).cfg = s.cfg := rfl
@[simp] theorem setWire_constructed (tx : Option (List Byte)) (s : State) : (s.setWire tx).constructed = s.constructed := rfl
@[simp] theorem setWire_tp (tx : Option (List Byte)) (s : State) : (s.setWire tx).tp = s.tp := rfl
@[simp] theorem setWire_osc (tx : Option (List Byte)) (s : State) : (s.setWire tx).osc = s.osc := rfl
@[simp] theorem setWire_bitrate (tx : Option (List Byte)) (s : State) : (s.setWire tx).bitrate = s.bitrate := rfl
@[simp] theorem setWire_needsReinit (tx : Option (List Byte)) (s : State) : (s.setWire tx).needsReinit = s.needsReinit := rfl
@[simp] theorem setWire_cs (tx : Option (List Byte)) (s : State) : (s.setWire tx).cs = s.cs := rfl
@[simp] theorem setWire_job (tx : Option (List Byte)) (s : State) : (s.setWire tx).job = s.job := rfl
@[simp] theorem setWire_wire (tx : Option (List Byte)) (s : State) : (s.setWire tx).wire = tx := rfl
@[simp] theorem setWire_response (tx : Option (List Byte)) (s : State) : (s.setWire tx).response = s.response := rfl
@[simp] theorem setWire_mem (tx : Option (List Byte)) (s : State) : (s.setWire tx).mem = s.mem := rfl
@[simp] theorem setWire_mode (tx : Option (List Byte)) (s : State) : (s.setWire tx).mode = s.mode := rfl
@[simp] theorem setWire_window (tx : Option (List Byte)) (s : State) : (s.setWire tx).window = s.window := rfl
@[simp] theorem setWire_requested (tx : Option (List Byte)) (s : State) : (s.setWire tx).requested = s.requested := rfl
@[simp] theorem setWire_host (tx : Option (List Byte)) (s : State) : (s.setWire tx).host = s.host := rfl
@[simp] theorem setWire_spi (tx : Option (List Byte)) (s : State) : (s.setWire tx).spi = s.spi := rfl
@[simp] theorem setWire_env (tx : Option (List Byte)) (s : State) : (s.setWire tx).env = s.env := rfl
@[simp] theorem setWire_outcomes (tx : Option (List Byte)) (s : State) : (s.setWire tx).outcomes = s.outcomes := rfl
@[simp] theorem setWire_trace (tx : Option (List Byte)) (s : State) : (s.setWire tx).trace = s.trace := rfl
@[simp] theorem setWire_marks (tx : Option (List Byte)) (s : State) : (s.setWire tx).marks = s.marks := rfl
@[simp] theorem setWire_draws (tx : Option (List Byte)) (s : State) : (s.setWire tx).draws = s.draws := rfl

/-! ### setResponse -/

@[simp] theorem setResponse_cfg (r : List Byte) (s : State) : (s.setResponse r).cfg = s.cfg := rfl
@[simp] theorem setResponse_constructed (r : List Byte) (s : State) : (s.setResponse r).constructed = s.constructed := rfl
@[simp] theorem setResponse_tp (r : List Byte) (s : State) : (s.setResponse r).tp = s.tp := rfl
@[simp] theorem setResponse_osc (r : List Byte) (s : State) : (s.setResponse r).osc = s.osc := rfl
@[simp] theorem setResponse_bitrate (r : List Byte) (s : State) : (s.setResponse r).bitrate = s.bitrate := rfl
@[simp] theorem setResponse_needsReinit (r : List Byte) (s : State) : (s.setResponse r).needsReinit = s.needsReinit := rfl
@[simp] theorem setResponse_cs (r : List Byte) (s : State) : (s.setResponse r).cs = s.cs := rfl
@[simp] theorem setResponse_job (r : List Byte) (s : State) : (s.setResponse r).job = s.job := rfl
@[simp] theorem setResponse_wire (r : List Byte) (s : State) : (s.setResponse r).wire = s.wire := rfl
@[simp] theorem setResponse_response (r : List Byte) (s : State) : (s.setResponse r).response = r := rfl
@[simp] theorem setResponse_mem (r : List Byte) (s : State) : (s.setResponse r).mem = s.mem := rfl
@[simp] theorem setResponse_mode (r : List Byte) (s : State) : (s.setResponse r).mode = s.mode := rfl
@[simp] theorem setResponse_window (r : List Byte) (s : State) : (s.setResponse r).window = s.window := rfl
@[simp] theorem setResponse_requested (r : List Byte) (s : State) : (s.setResponse r).requested = s.requested := rfl
@[simp] theorem setResponse_host (r : List Byte) (s : State) : (s.setResponse r).host = s.host := rfl
@[simp] theorem setResponse_spi (r : List Byte) (s : State) : (s.setResponse r).spi = s.spi := rfl
@[simp] theorem setResponse_env (r : List Byte) (s : State) : (s.setResponse r).env = s.env := rfl
@[simp] theorem setResponse_outcomes (r : List Byte) (s : State) : (s.setResponse r).outcomes = s.outcomes := rfl
@[simp] theorem setResponse_trace (r : List Byte) (s : State) : (s.setResponse r).trace = s.trace := rfl
@[simp] theorem setResponse_marks (r : List Byte) (s : State) : (s.setResponse r).marks = s.marks := rfl
@[simp] theorem setResponse_draws (r : List Byte) (s : State) : (s.setResponse r).draws = s.draws := rfl

/-! ### setHost -/

@[simp] theorem setHost_cfg (h : List HostEvent) (s : State) : (s.setHost h).cfg = s.cfg := rfl
@[simp] theorem setHost_constructed (h : List HostEvent) (s : State) : (s.setHost h).constructed = s.constructed := rfl
@[simp] theorem setHost_tp (h : List HostEvent) (s : State) : (s.setHost h).tp = s.tp := rfl
@[simp] theorem setHost_osc (h : List HostEvent) (s : State) : (s.setHost h).osc = s.osc := rfl
@[simp] theorem setHost_bitrate (h : List HostEvent) (s : State) : (s.setHost h).bitrate = s.bitrate := rfl
@[simp] theorem setHost_needsReinit (h : List HostEvent) (s : State) : (s.setHost h).needsReinit = s.needsReinit := rfl
@[simp] theorem setHost_cs (h : List HostEvent) (s : State) : (s.setHost h).cs = s.cs := rfl
@[simp] theorem setHost_job (h : List HostEvent) (s : State) : (s.setHost h).job = s.job := rfl
@[simp] theorem setHost_wire (h : List HostEvent) (s : State) : (s.setHost h).wire = s.wire := rfl
@[simp] theorem setHost_response (h : List HostEvent) (s : State) : (s.setHost h).response = s.response := rfl
@[simp] theorem setHost_mem (h : List HostEvent) (s : State) : (s.setHost h).mem = s.mem := rfl
@[simp] theorem setHost_mode (h : List HostEvent) (s : State) : (s.setHost h).mode = s.mode := rfl
@[simp] theorem setHost_window (h : List HostEvent) (s : State) : (s.setHost h).window = s.window := rfl
@[simp] theorem setHost_requested (h : List HostEvent) (s : State) : (s.setHost h).requested = s.requested := rfl
@[simp] theorem setHost_host (h : List HostEvent) (s : State) : (s.setHost h).host = h := rfl
@[simp] theorem setHost_spi (h : List HostEvent) (s : State) : (s.setHost h).spi = s.spi := rfl
@[simp] theorem setHost_env (h : List HostEvent) (s : State) : (s.setHost h).env = s.env := rfl
@[simp] theorem setHost_outcomes (h : List HostEvent) (s : State) : (s.setHost h).outcomes = s.outcomes := rfl
@[simp] theorem setHost_trace (h : List HostEvent) (s : State) : (s.setHost h).trace = s.trace := rfl
@[simp] theorem setHost_marks (h : List HostEvent) (s : State) : (s.setHost h).marks = s.marks := rfl
@[simp] theorem setHost_draws (h : List HostEvent) (s : State) : (s.setHost h).draws = s.draws := rfl

/-! ### setSpi -/

@[simp] theorem setSpi_cfg (v : List Verdict) (s : State) : (s.setSpi v).cfg = s.cfg := rfl
@[simp] theorem setSpi_constructed (v : List Verdict) (s : State) : (s.setSpi v).constructed = s.constructed := rfl
@[simp] theorem setSpi_tp (v : List Verdict) (s : State) : (s.setSpi v).tp = s.tp := rfl
@[simp] theorem setSpi_osc (v : List Verdict) (s : State) : (s.setSpi v).osc = s.osc := rfl
@[simp] theorem setSpi_bitrate (v : List Verdict) (s : State) : (s.setSpi v).bitrate = s.bitrate := rfl
@[simp] theorem setSpi_needsReinit (v : List Verdict) (s : State) : (s.setSpi v).needsReinit = s.needsReinit := rfl
@[simp] theorem setSpi_cs (v : List Verdict) (s : State) : (s.setSpi v).cs = s.cs := rfl
@[simp] theorem setSpi_job (v : List Verdict) (s : State) : (s.setSpi v).job = s.job := rfl
@[simp] theorem setSpi_wire (v : List Verdict) (s : State) : (s.setSpi v).wire = s.wire := rfl
@[simp] theorem setSpi_response (v : List Verdict) (s : State) : (s.setSpi v).response = s.response := rfl
@[simp] theorem setSpi_mem (v : List Verdict) (s : State) : (s.setSpi v).mem = s.mem := rfl
@[simp] theorem setSpi_mode (v : List Verdict) (s : State) : (s.setSpi v).mode = s.mode := rfl
@[simp] theorem setSpi_window (v : List Verdict) (s : State) : (s.setSpi v).window = s.window := rfl
@[simp] theorem setSpi_requested (v : List Verdict) (s : State) : (s.setSpi v).requested = s.requested := rfl
@[simp] theorem setSpi_host (v : List Verdict) (s : State) : (s.setSpi v).host = s.host := rfl
@[simp] theorem setSpi_spi (v : List Verdict) (s : State) : (s.setSpi v).spi = v := rfl
@[simp] theorem setSpi_env (v : List Verdict) (s : State) : (s.setSpi v).env = s.env := rfl
@[simp] theorem setSpi_outcomes (v : List Verdict) (s : State) : (s.setSpi v).outcomes = s.outcomes := rfl
@[simp] theorem setSpi_trace (v : List Verdict) (s : State) : (s.setSpi v).trace = s.trace := rfl
@[simp] theorem setSpi_marks (v : List Verdict) (s : State) : (s.setSpi v).marks = s.marks := rfl
@[simp] theorem setSpi_draws (v : List Verdict) (s : State) : (s.setSpi v).draws = s.draws := rfl

/-! ### setEnv -/

@[simp] theorem setEnv_cfg (e : List (List EnvStep)) (s : State) : (s.setEnv e).cfg = s.cfg := rfl
@[simp] theorem setEnv_constructed (e : List (List EnvStep)) (s : State) : (s.setEnv e).constructed = s.constructed := rfl
@[simp] theorem setEnv_tp (e : List (List EnvStep)) (s : State) : (s.setEnv e).tp = s.tp := rfl
@[simp] theorem setEnv_osc (e : List (List EnvStep)) (s : State) : (s.setEnv e).osc = s.osc := rfl
@[simp] theorem setEnv_bitrate (e : List (List EnvStep)) (s : State) : (s.setEnv e).bitrate = s.bitrate := rfl
@[simp] theorem setEnv_needsReinit (e : List (List EnvStep)) (s : State) : (s.setEnv e).needsReinit = s.needsReinit := rfl
@[simp] theorem setEnv_cs (e : List (List EnvStep)) (s : State) : (s.setEnv e).cs = s.cs := rfl
@[simp] theorem setEnv_job (e : List (List EnvStep)) (s : State) : (s.setEnv e).job = s.job := rfl
@[simp] theorem setEnv_wire (e : List (List EnvStep)) (s : State) : (s.setEnv e).wire = s.wire := rfl
@[simp] theorem setEnv_response (e : List (List EnvStep)) (s : State) : (s.setEnv e).response = s.response := rfl
@[simp] theorem setEnv_mem (e : List (List EnvStep)) (s : State) : (s.setEnv e).mem = s.mem := rfl
@[simp] theorem setEnv_mode (e : List (List EnvStep)) (s : State) : (s.setEnv e).mode = s.mode := rfl
@[simp] theorem setEnv_window (e : List (List EnvStep)) (s : State) : (s.setEnv e).window = s.window := rfl
@[simp] theorem setEnv_requested (e : List (List EnvStep)) (s : State) : (s.setEnv e).requested = s.requested := rfl
@[simp] theorem setEnv_host (e : List (List EnvStep)) (s : State) : (s.setEnv e).host = s.host := rfl
@[simp] theorem setEnv_spi (e : List (List EnvStep)) (s : State) : (s.setEnv e).spi = s.spi := rfl
@[simp] theorem setEnv_env (e : List (List EnvStep)) (s : State) : (s.setEnv e).env = e := rfl
@[simp] theorem setEnv_outcomes (e : List (List EnvStep)) (s : State) : (s.setEnv e).outcomes = s.outcomes := rfl
@[simp] theorem setEnv_trace (e : List (List EnvStep)) (s : State) : (s.setEnv e).trace = s.trace := rfl
@[simp] theorem setEnv_marks (e : List (List EnvStep)) (s : State) : (s.setEnv e).marks = s.marks := rfl
@[simp] theorem setEnv_draws (e : List (List EnvStep)) (s : State) : (s.setEnv e).draws = s.draws := rfl

/-! ### setRequested -/

@[simp] theorem setRequested_cfg (r : TxRequests) (s : State) : (s.setRequested r).cfg = s.cfg := rfl
@[simp] theorem setRequested_constructed (r : TxRequests) (s : State) : (s.setRequested r).constructed = s.constructed := rfl
@[simp] theorem setRequested_tp (r : TxRequests) (s : State) : (s.setRequested r).tp = s.tp := rfl
@[simp] theorem setRequested_osc (r : TxRequests) (s : State) : (s.setRequested r).osc = s.osc := rfl
@[simp] theorem setRequested_bitrate (r : TxRequests) (s : State) : (s.setRequested r).bitrate = s.bitrate := rfl
@[simp] theorem setRequested_needsReinit (r : TxRequests) (s : State) : (s.setRequested r).needsReinit = s.needsReinit := rfl
@[simp] theorem setRequested_cs (r : TxRequests) (s : State) : (s.setRequested r).cs = s.cs := rfl
@[simp] theorem setRequested_job (r : TxRequests) (s : State) : (s.setRequested r).job = s.job := rfl
@[simp] theorem setRequested_wire (r : TxRequests) (s : State) : (s.setRequested r).wire = s.wire := rfl
@[simp] theorem setRequested_response (r : TxRequests) (s : State) : (s.setRequested r).response = s.response := rfl
@[simp] theorem setRequested_mem (r : TxRequests) (s : State) : (s.setRequested r).mem = s.mem := rfl
@[simp] theorem setRequested_mode (r : TxRequests) (s : State) : (s.setRequested r).mode = s.mode := rfl
@[simp] theorem setRequested_window (r : TxRequests) (s : State) : (s.setRequested r).window = s.window := rfl
@[simp] theorem setRequested_requested (r : TxRequests) (s : State) : (s.setRequested r).requested = r := rfl
@[simp] theorem setRequested_host (r : TxRequests) (s : State) : (s.setRequested r).host = s.host := rfl
@[simp] theorem setRequested_spi (r : TxRequests) (s : State) : (s.setRequested r).spi = s.spi := rfl
@[simp] theorem setRequested_env (r : TxRequests) (s : State) : (s.setRequested r).env = s.env := rfl
@[simp] theorem setRequested_outcomes (r : TxRequests) (s : State) : (s.setRequested r).outcomes = s.outcomes := rfl
@[simp] theorem setRequested_trace (r : TxRequests) (s : State) : (s.setRequested r).trace = s.trace := rfl
@[simp] theorem setRequested_marks (r : TxRequests) (s : State) : (s.setRequested r).marks = s.marks := rfl
@[simp] theorem setRequested_draws (r : TxRequests) (s : State) : (s.setRequested r).draws = s.draws := rfl

/-! ### setJob -/

@[simp] theorem setJob_cfg (j : Option Job) (s : State) : (s.setJob j).cfg = s.cfg := rfl
@[simp] theorem setJob_constructed (j : Option Job) (s : State) : (s.setJob j).constructed = s.constructed := rfl
@[simp] theorem setJob_tp (j : Option Job) (s : State) : (s.setJob j).tp = s.tp := rfl
@[simp] theorem setJob_osc (j : Option Job) (s : State) : (s.setJob j).osc = s.osc := rfl
@[simp] theorem setJob_bitrate (j : Option Job) (s : State) : (s.setJob j).bitrate = s.bitrate := rfl
@[simp] theorem setJob_needsReinit (j : Option Job) (s : State) : (s.setJob j).needsReinit = s.needsReinit := rfl
@[simp] theorem setJob_cs (j : Option Job) (s : State) : (s.setJob j).cs = s.cs := rfl
@[simp] theorem setJob_job (j : Option Job) (s : State) : (s.setJob j).job = j := rfl
@[simp] theorem setJob_wire (j : Option Job) (s : State) : (s.setJob j).wire = s.wire := rfl
@[simp] theorem setJob_response (j : Option Job) (s : State) : (s.setJob j).response = s.response := rfl
@[simp] theorem setJob_mem (j : Option Job) (s : State) : (s.setJob j).mem = s.mem := rfl
@[simp] theorem setJob_mode (j : Option Job) (s : State) : (s.setJob j).mode = s.mode := rfl
@[simp] theorem setJob_window (j : Option Job) (s : State) : (s.setJob j).window = s.window := rfl
@[simp] theorem setJob_requested (j : Option Job) (s : State) : (s.setJob j).requested = s.requested := rfl
@[simp] theorem setJob_host (j : Option Job) (s : State) : (s.setJob j).host = s.host := rfl
@[simp] theorem setJob_spi (j : Option Job) (s : State) : (s.setJob j).spi = s.spi := rfl
@[simp] theorem setJob_env (j : Option Job) (s : State) : (s.setJob j).env = s.env := rfl
@[simp] theorem setJob_outcomes (j : Option Job) (s : State) : (s.setJob j).outcomes = s.outcomes := rfl
@[simp] theorem setJob_trace (j : Option Job) (s : State) : (s.setJob j).trace = s.trace := rfl
@[simp] theorem setJob_marks (j : Option Job) (s : State) : (s.setJob j).marks = s.marks := rfl
@[simp] theorem setJob_draws (j : Option Job) (s : State) : (s.setJob j).draws = s.draws := rfl

/-! ### setReg -/

@[simp] theorem setReg_cfg (a : Nat) (v : Byte) (s : State) : (s.setReg a v).cfg = s.cfg := rfl
@[simp] theorem setReg_constructed (a : Nat) (v : Byte) (s : State) : (s.setReg a v).constructed = s.constructed := rfl
@[simp] theorem setReg_tp (a : Nat) (v : Byte) (s : State) : (s.setReg a v).tp = s.tp := rfl
@[simp] theorem setReg_osc (a : Nat) (v : Byte) (s : State) : (s.setReg a v).osc = s.osc := rfl
@[simp] theorem setReg_bitrate (a : Nat) (v : Byte) (s : State) : (s.setReg a v).bitrate = s.bitrate := rfl
@[simp] theorem setReg_needsReinit (a : Nat) (v : Byte) (s : State) : (s.setReg a v).needsReinit = s.needsReinit := rfl
@[simp] theorem setReg_cs (a : Nat) (v : Byte) (s : State) : (s.setReg a v).cs = s.cs := rfl
@[simp] theorem setReg_job (a : Nat) (v : Byte) (s : State) : (s.setReg a v).job = s.job := rfl
@[simp] theorem setReg_wire (a : Nat) (v : Byte) (s : State) : (s.setReg a v).wire = s.wire := rfl
@[simp] theorem setReg_response (a : Nat) (v : Byte) (s : State) : (s.setReg a v).response = s.response := rfl
@[simp] theorem setReg_mem (a : Nat) (v : Byte) (s : State) : (s.setReg a v).mem = Memory.write s.mem a v := rfl
@[simp] theorem setReg_mode (a : Nat) (v : Byte) (s : State) : (s.setReg a v).mode = s.mode := rfl
@[simp] theorem setReg_window (a : Nat) (v : Byte) (s : State) : (s.setReg a v).window = s.window := rfl
@[simp] theorem setReg_requested (a : Nat) (v : Byte) (s : State) : (s.setReg a v).requested = s.requested := rfl
@[simp] theorem setReg_host (a : Nat) (v : Byte) (s : State) : (s.setReg a v).host = s.host := rfl
@[simp] theorem setReg_spi (a : Nat) (v : Byte) (s : State) : (s.setReg a v).spi = s.spi := rfl
@[simp] theorem setReg_env (a : Nat) (v : Byte) (s : State) : (s.setReg a v).env = s.env := rfl
@[simp] theorem setReg_outcomes (a : Nat) (v : Byte) (s : State) : (s.setReg a v).outcomes = s.outcomes := rfl
@[simp] theorem setReg_trace (a : Nat) (v : Byte) (s : State) : (s.setReg a v).trace = s.trace := rfl
@[simp] theorem setReg_marks (a : Nat) (v : Byte) (s : State) : (s.setReg a v).marks = s.marks := rfl
@[simp] theorem setReg_draws (a : Nat) (v : Byte) (s : State) : (s.setReg a v).draws = s.draws := rfl

/-! ### enterMode -/

@[simp] theorem enterMode_cfg (m : OperatingMode) (s : State) : (s.enterMode m).cfg = s.cfg := rfl
@[simp] theorem enterMode_constructed (m : OperatingMode) (s : State) : (s.enterMode m).constructed = s.constructed := rfl
@[simp] theorem enterMode_tp (m : OperatingMode) (s : State) : (s.enterMode m).tp = s.tp := rfl
@[simp] theorem enterMode_osc (m : OperatingMode) (s : State) : (s.enterMode m).osc = s.osc := rfl
@[simp] theorem enterMode_bitrate (m : OperatingMode) (s : State) : (s.enterMode m).bitrate = s.bitrate := rfl
@[simp] theorem enterMode_needsReinit (m : OperatingMode) (s : State) : (s.enterMode m).needsReinit = s.needsReinit := rfl
@[simp] theorem enterMode_cs (m : OperatingMode) (s : State) : (s.enterMode m).cs = s.cs := rfl
@[simp] theorem enterMode_job (m : OperatingMode) (s : State) : (s.enterMode m).job = s.job := rfl
@[simp] theorem enterMode_wire (m : OperatingMode) (s : State) : (s.enterMode m).wire = s.wire := rfl
@[simp] theorem enterMode_response (m : OperatingMode) (s : State) : (s.enterMode m).response = s.response := rfl
@[simp] theorem enterMode_mem (m : OperatingMode) (s : State) : (s.enterMode m).mem = Memory.write s.mem s.cfg.statAddr (showMode s.cfg (s.reg s.cfg.statAddr) m) := rfl
@[simp] theorem enterMode_mode (m : OperatingMode) (s : State) : (s.enterMode m).mode = m := rfl
@[simp] theorem enterMode_window (m : OperatingMode) (s : State) : (s.enterMode m).window = s.window := rfl
@[simp] theorem enterMode_requested (m : OperatingMode) (s : State) : (s.enterMode m).requested = s.requested := rfl
@[simp] theorem enterMode_host (m : OperatingMode) (s : State) : (s.enterMode m).host = s.host := rfl
@[simp] theorem enterMode_spi (m : OperatingMode) (s : State) : (s.enterMode m).spi = s.spi := rfl
@[simp] theorem enterMode_env (m : OperatingMode) (s : State) : (s.enterMode m).env = s.env := rfl
@[simp] theorem enterMode_outcomes (m : OperatingMode) (s : State) : (s.enterMode m).outcomes = s.outcomes := rfl
@[simp] theorem enterMode_trace (m : OperatingMode) (s : State) : (s.enterMode m).trace = s.trace := rfl
@[simp] theorem enterMode_marks (m : OperatingMode) (s : State) : (s.enterMode m).marks = s.marks := rfl
@[simp] theorem enterMode_draws (m : OperatingMode) (s : State) : (s.enterMode m).draws = s.draws := rfl

/-! ### mark -/

@[simp] theorem mark_cfg (k : RunMark) (s : State) : (s.mark k).cfg = s.cfg := rfl
@[simp] theorem mark_constructed (k : RunMark) (s : State) : (s.mark k).constructed = s.constructed := rfl
@[simp] theorem mark_tp (k : RunMark) (s : State) : (s.mark k).tp = s.tp := rfl
@[simp] theorem mark_osc (k : RunMark) (s : State) : (s.mark k).osc = s.osc := rfl
@[simp] theorem mark_bitrate (k : RunMark) (s : State) : (s.mark k).bitrate = s.bitrate := rfl
@[simp] theorem mark_needsReinit (k : RunMark) (s : State) : (s.mark k).needsReinit = s.needsReinit := rfl
@[simp] theorem mark_cs (k : RunMark) (s : State) : (s.mark k).cs = s.cs := rfl
@[simp] theorem mark_job (k : RunMark) (s : State) : (s.mark k).job = s.job := rfl
@[simp] theorem mark_wire (k : RunMark) (s : State) : (s.mark k).wire = s.wire := rfl
@[simp] theorem mark_response (k : RunMark) (s : State) : (s.mark k).response = s.response := rfl
@[simp] theorem mark_mem (k : RunMark) (s : State) : (s.mark k).mem = s.mem := rfl
@[simp] theorem mark_mode (k : RunMark) (s : State) : (s.mark k).mode = s.mode := rfl
@[simp] theorem mark_window (k : RunMark) (s : State) : (s.mark k).window = s.window := rfl
@[simp] theorem mark_requested (k : RunMark) (s : State) : (s.mark k).requested = s.requested := rfl
@[simp] theorem mark_host (k : RunMark) (s : State) : (s.mark k).host = s.host := rfl
@[simp] theorem mark_spi (k : RunMark) (s : State) : (s.mark k).spi = s.spi := rfl
@[simp] theorem mark_env (k : RunMark) (s : State) : (s.mark k).env = s.env := rfl
@[simp] theorem mark_outcomes (k : RunMark) (s : State) : (s.mark k).outcomes = s.outcomes := rfl
@[simp] theorem mark_trace (k : RunMark) (s : State) : (s.mark k).trace = s.trace := rfl
@[simp] theorem mark_marks (k : RunMark) (s : State) : (s.mark k).marks = s.marks ++ [k] := rfl
@[simp] theorem mark_draws (k : RunMark) (s : State) : (s.mark k).draws = s.draws := rfl

/-! ### drawByte -/

@[simp] theorem drawByte_cfg (s : State) : (drawByte s).2.cfg = s.cfg := rfl
@[simp] theorem drawByte_constructed (s : State) : (drawByte s).2.constructed = s.constructed := rfl
@[simp] theorem drawByte_tp (s : State) : (drawByte s).2.tp = s.tp := rfl
@[simp] theorem drawByte_osc (s : State) : (drawByte s).2.osc = s.osc := rfl
@[simp] theorem drawByte_bitrate (s : State) : (drawByte s).2.bitrate = s.bitrate := rfl
@[simp] theorem drawByte_needsReinit (s : State) : (drawByte s).2.needsReinit = s.needsReinit := rfl
@[simp] theorem drawByte_cs (s : State) : (drawByte s).2.cs = s.cs := rfl
@[simp] theorem drawByte_job (s : State) : (drawByte s).2.job = s.job := rfl
@[simp] theorem drawByte_wire (s : State) : (drawByte s).2.wire = s.wire := rfl
@[simp] theorem drawByte_response (s : State) : (drawByte s).2.response = s.response := rfl
@[simp] theorem drawByte_mem (s : State) : (drawByte s).2.mem = s.mem := rfl
@[simp] theorem drawByte_mode (s : State) : (drawByte s).2.mode = s.mode := rfl
@[simp] theorem drawByte_window (s : State) : (drawByte s).2.window = s.window := rfl
@[simp] theorem drawByte_requested (s : State) : (drawByte s).2.requested = s.requested := rfl
@[simp] theorem drawByte_host (s : State) : (drawByte s).2.host = s.host := rfl
@[simp] theorem drawByte_spi (s : State) : (drawByte s).2.spi = s.spi := rfl
@[simp] theorem drawByte_env (s : State) : (drawByte s).2.env = s.env := rfl
@[simp] theorem drawByte_outcomes (s : State) : (drawByte s).2.outcomes = s.outcomes := rfl
@[simp] theorem drawByte_trace (s : State) : (drawByte s).2.trace = s.trace := rfl
@[simp] theorem drawByte_marks (s : State) : (drawByte s).2.marks = s.marks := rfl
@[simp] theorem drawByte_draws (s : State) : (drawByte s).2.draws = s.draws + 1 := rfl

/-! ### requestTx -/

@[simp] theorem requestTx_cfg (sel : Byte) (s : State) : (requestTx sel s).cfg = s.cfg := rfl
@[simp] theorem requestTx_constructed (sel : Byte) (s : State) : (requestTx sel s).constructed = s.constructed := rfl
@[simp] theorem requestTx_tp (sel : Byte) (s : State) : (requestTx sel s).tp = s.tp := rfl
@[simp] theorem requestTx_osc (sel : Byte) (s : State) : (requestTx sel s).osc = s.osc := rfl
@[simp] theorem requestTx_bitrate (sel : Byte) (s : State) : (requestTx sel s).bitrate = s.bitrate := rfl
@[simp] theorem requestTx_needsReinit (sel : Byte) (s : State) : (requestTx sel s).needsReinit = s.needsReinit := rfl
@[simp] theorem requestTx_cs (sel : Byte) (s : State) : (requestTx sel s).cs = s.cs := rfl
@[simp] theorem requestTx_job (sel : Byte) (s : State) : (requestTx sel s).job = s.job := rfl
@[simp] theorem requestTx_wire (sel : Byte) (s : State) : (requestTx sel s).wire = s.wire := rfl
@[simp] theorem requestTx_response (sel : Byte) (s : State) : (requestTx sel s).response = s.response := rfl
@[simp] theorem requestTx_mem (sel : Byte) (s : State) : (requestTx sel s).mem = s.mem := rfl
@[simp] theorem requestTx_mode (sel : Byte) (s : State) : (requestTx sel s).mode = s.mode := rfl
@[simp] theorem requestTx_window (sel : Byte) (s : State) : (requestTx sel s).window = s.window := rfl
@[simp] theorem requestTx_requested (sel : Byte) (s : State) : (requestTx sel s).requested = ⟨s.requested.txb0 || sel.getLsbD 0, s.requested.txb1 || sel.getLsbD 1, s.requested.txb2 || sel.getLsbD 2⟩ := rfl
@[simp] theorem requestTx_host (sel : Byte) (s : State) : (requestTx sel s).host = s.host := rfl
@[simp] theorem requestTx_spi (sel : Byte) (s : State) : (requestTx sel s).spi = s.spi := rfl
@[simp] theorem requestTx_env (sel : Byte) (s : State) : (requestTx sel s).env = s.env := rfl
@[simp] theorem requestTx_outcomes (sel : Byte) (s : State) : (requestTx sel s).outcomes = s.outcomes := rfl
@[simp] theorem requestTx_trace (sel : Byte) (s : State) : (requestTx sel s).trace = s.trace := rfl
@[simp] theorem requestTx_marks (sel : Byte) (s : State) : (requestTx sel s).marks = s.marks := rfl
@[simp] theorem requestTx_draws (sel : Byte) (s : State) : (requestTx sel s).draws = s.draws := rfl

/-! ### targetReset -/

@[simp] theorem targetReset_cfg (s : State) : (targetReset s).cfg = s.cfg := rfl
@[simp] theorem targetReset_constructed (s : State) : (targetReset s).constructed = s.constructed := rfl
@[simp] theorem targetReset_tp (s : State) : (targetReset s).tp = s.tp := rfl
@[simp] theorem targetReset_osc (s : State) : (targetReset s).osc = s.osc := rfl
@[simp] theorem targetReset_bitrate (s : State) : (targetReset s).bitrate = s.bitrate := rfl
@[simp] theorem targetReset_needsReinit (s : State) : (targetReset s).needsReinit = s.needsReinit := rfl
@[simp] theorem targetReset_cs (s : State) : (targetReset s).cs = s.cs := rfl
@[simp] theorem targetReset_job (s : State) : (targetReset s).job = s.job := rfl
@[simp] theorem targetReset_wire (s : State) : (targetReset s).wire = s.wire := rfl
@[simp] theorem targetReset_response (s : State) : (targetReset s).response = s.response := rfl
@[simp] theorem targetReset_mem (s : State) : (targetReset s).mem = [] := rfl
@[simp] theorem targetReset_mode (s : State) : (targetReset s).mode = .powerUp := rfl
@[simp] theorem targetReset_window (s : State) : (targetReset s).window = s.window := rfl
@[simp] theorem targetReset_requested (s : State) : (targetReset s).requested = ⟨false, false, false⟩ := rfl
@[simp] theorem targetReset_host (s : State) : (targetReset s).host = s.host := rfl
@[simp] theorem targetReset_spi (s : State) : (targetReset s).spi = s.spi := rfl
@[simp] theorem targetReset_env (s : State) : (targetReset s).env = s.env := rfl
@[simp] theorem targetReset_outcomes (s : State) : (targetReset s).outcomes = s.outcomes := rfl
@[simp] theorem targetReset_trace (s : State) : (targetReset s).trace = s.trace := rfl
@[simp] theorem targetReset_marks (s : State) : (targetReset s).marks = s.marks := rfl
@[simp] theorem targetReset_draws (s : State) : (targetReset s).draws = s.draws := rfl

/-! ### targetPowerUp -/

@[simp] theorem targetPowerUp_cfg (s : State) : (targetPowerUp s).cfg = s.cfg := rfl
@[simp] theorem targetPowerUp_constructed (s : State) : (targetPowerUp s).constructed = s.constructed := rfl
@[simp] theorem targetPowerUp_tp (s : State) : (targetPowerUp s).tp = s.tp := rfl
@[simp] theorem targetPowerUp_osc (s : State) : (targetPowerUp s).osc = s.osc := rfl
@[simp] theorem targetPowerUp_bitrate (s : State) : (targetPowerUp s).bitrate = s.bitrate := rfl
@[simp] theorem targetPowerUp_needsReinit (s : State) : (targetPowerUp s).needsReinit = s.needsReinit := rfl
@[simp] theorem targetPowerUp_cs (s : State) : (targetPowerUp s).cs = s.cs := rfl
@[simp] theorem targetPowerUp_job (s : State) : (targetPowerUp s).job = s.job := rfl
@[simp] theorem targetPowerUp_wire (s : State) : (targetPowerUp s).wire = s.wire := rfl
@[simp] theorem targetPowerUp_response (s : State) : (targetPowerUp s).response = s.response := rfl
@[simp] theorem targetPowerUp_mem (s : State) : (targetPowerUp s).mem = [] := rfl
@[simp] theorem targetPowerUp_mode (s : State) : (targetPowerUp s).mode = .powerUp := rfl
@[simp] theorem targetPowerUp_window (s : State) : (targetPowerUp s).window = none := rfl
@[simp] theorem targetPowerUp_requested (s : State) : (targetPowerUp s).requested = ⟨false, false, false⟩ := rfl
@[simp] theorem targetPowerUp_host (s : State) : (targetPowerUp s).host = s.host := rfl
@[simp] theorem targetPowerUp_spi (s : State) : (targetPowerUp s).spi = s.spi := rfl
@[simp] theorem targetPowerUp_env (s : State) : (targetPowerUp s).env = s.env := rfl
@[simp] theorem targetPowerUp_outcomes (s : State) : (targetPowerUp s).outcomes = s.outcomes := rfl
@[simp] theorem targetPowerUp_trace (s : State) : (targetPowerUp s).trace = s.trace := rfl
@[simp] theorem targetPowerUp_marks (s : State) : (targetPowerUp s).marks = s.marks := rfl
@[simp] theorem targetPowerUp_draws (s : State) : (targetPowerUp s).draws = s.draws := rfl

/-! ### blockPowerUp -/

@[simp] theorem blockPowerUp_cfg (s : State) : (blockPowerUp s).cfg = s.cfg := rfl
@[simp] theorem blockPowerUp_constructed (s : State) : (blockPowerUp s).constructed = false := rfl
@[simp] theorem blockPowerUp_tp (s : State) : (blockPowerUp s).tp = none := rfl
@[simp] theorem blockPowerUp_osc (s : State) : (blockPowerUp s).osc = none := rfl
@[simp] theorem blockPowerUp_bitrate (s : State) : (blockPowerUp s).bitrate = none := rfl
@[simp] theorem blockPowerUp_needsReinit (s : State) : (blockPowerUp s).needsReinit = false := rfl
@[simp] theorem blockPowerUp_cs (s : State) : (blockPowerUp s).cs = .released := rfl
@[simp] theorem blockPowerUp_job (s : State) : (blockPowerUp s).job = none := rfl
@[simp] theorem blockPowerUp_wire (s : State) : (blockPowerUp s).wire = none := rfl
@[simp] theorem blockPowerUp_response (s : State) : (blockPowerUp s).response = [] := rfl
@[simp] theorem blockPowerUp_mem (s : State) : (blockPowerUp s).mem = s.mem := rfl
@[simp] theorem blockPowerUp_mode (s : State) : (blockPowerUp s).mode = s.mode := rfl
@[simp] theorem blockPowerUp_window (s : State) : (blockPowerUp s).window = none := rfl
@[simp] theorem blockPowerUp_requested (s : State) : (blockPowerUp s).requested = s.requested := rfl
@[simp] theorem blockPowerUp_host (s : State) : (blockPowerUp s).host = s.host := rfl
@[simp] theorem blockPowerUp_spi (s : State) : (blockPowerUp s).spi = s.spi := rfl
@[simp] theorem blockPowerUp_env (s : State) : (blockPowerUp s).env = s.env := rfl
@[simp] theorem blockPowerUp_outcomes (s : State) : (blockPowerUp s).outcomes = s.outcomes := rfl
@[simp] theorem blockPowerUp_trace (s : State) : (blockPowerUp s).trace = s.trace := rfl
@[simp] theorem blockPowerUp_marks (s : State) : (blockPowerUp s).marks = s.marks := rfl
@[simp] theorem blockPowerUp_draws (s : State) : (blockPowerUp s).draws = s.draws := rfl

/-! ### deliver -/

@[simp] theorem deliver_cfg (o : CmdOutcome) (s : State) : (deliver o s).cfg = s.cfg := rfl
@[simp] theorem deliver_constructed (o : CmdOutcome) (s : State) : (deliver o s).constructed = s.constructed := rfl
@[simp] theorem deliver_tp (o : CmdOutcome) (s : State) : (deliver o s).tp = s.tp := rfl
@[simp] theorem deliver_osc (o : CmdOutcome) (s : State) : (deliver o s).osc = s.osc := rfl
@[simp] theorem deliver_bitrate (o : CmdOutcome) (s : State) : (deliver o s).bitrate = s.bitrate := rfl
@[simp] theorem deliver_needsReinit (o : CmdOutcome) (s : State) : (deliver o s).needsReinit = s.needsReinit := rfl
@[simp] theorem deliver_cs (o : CmdOutcome) (s : State) : (deliver o s).cs = s.cs := rfl
@[simp] theorem deliver_job (o : CmdOutcome) (s : State) : (deliver o s).job = none := rfl
@[simp] theorem deliver_wire (o : CmdOutcome) (s : State) : (deliver o s).wire = s.wire := rfl
@[simp] theorem deliver_response (o : CmdOutcome) (s : State) : (deliver o s).response = [] := rfl
@[simp] theorem deliver_mem (o : CmdOutcome) (s : State) : (deliver o s).mem = s.mem := rfl
@[simp] theorem deliver_mode (o : CmdOutcome) (s : State) : (deliver o s).mode = s.mode := rfl
@[simp] theorem deliver_window (o : CmdOutcome) (s : State) : (deliver o s).window = s.window := rfl
@[simp] theorem deliver_requested (o : CmdOutcome) (s : State) : (deliver o s).requested = s.requested := rfl
@[simp] theorem deliver_host (o : CmdOutcome) (s : State) : (deliver o s).host = s.host := rfl
@[simp] theorem deliver_spi (o : CmdOutcome) (s : State) : (deliver o s).spi = s.spi := rfl
@[simp] theorem deliver_env (o : CmdOutcome) (s : State) : (deliver o s).env = s.env := rfl
@[simp] theorem deliver_outcomes (o : CmdOutcome) (s : State) : (deliver o s).outcomes = s.outcomes ++ [o] := rfl
@[simp] theorem deliver_trace (o : CmdOutcome) (s : State) : (deliver o s).trace = s.trace := rfl
@[simp] theorem deliver_marks (o : CmdOutcome) (s : State) : (deliver o s).marks = s.marks := rfl
@[simp] theorem deliver_draws (o : CmdOutcome) (s : State) : (deliver o s).draws = s.draws := rfl

/-! ### raiseError -/

@[simp] theorem raiseError_cfg (e : CmdError) (s : State) : (raiseError e s).cfg = s.cfg := rfl
@[simp] theorem raiseError_constructed (e : CmdError) (s : State) : (raiseError e s).constructed = s.constructed := rfl
@[simp] theorem raiseError_tp (e : CmdError) (s : State) : (raiseError e s).tp = s.tp := rfl
@[simp] theorem raiseError_osc (e : CmdError) (s : State) : (raiseError e s).osc = s.osc := rfl
@[simp] theorem raiseError_bitrate (e : CmdError) (s : State) : (raiseError e s).bitrate = s.bitrate := rfl
@[simp] theorem raiseError_needsReinit (e : CmdError) (s : State) : (raiseError e s).needsReinit = (s.needsReinit || e.needsReinit) := rfl
@[simp] theorem raiseError_cs (e : CmdError) (s : State) : (raiseError e s).cs = .released := rfl
@[simp] theorem raiseError_job (e : CmdError) (s : State) : (raiseError e s).job = none := rfl
@[simp] theorem raiseError_wire (e : CmdError) (s : State) : (raiseError e s).wire = none := rfl
@[simp] theorem raiseError_response (e : CmdError) (s : State) : (raiseError e s).response = [] := rfl
@[simp] theorem raiseError_mem (e : CmdError) (s : State) : (raiseError e s).mem = s.mem := rfl
@[simp] theorem raiseError_mode (e : CmdError) (s : State) : (raiseError e s).mode = s.mode := rfl
@[simp] theorem raiseError_window (e : CmdError) (s : State) : (raiseError e s).window = none := rfl
@[simp] theorem raiseError_requested (e : CmdError) (s : State) : (raiseError e s).requested = s.requested := rfl
@[simp] theorem raiseError_host (e : CmdError) (s : State) : (raiseError e s).host = s.host := rfl
@[simp] theorem raiseError_spi (e : CmdError) (s : State) : (raiseError e s).spi = s.spi := rfl
@[simp] theorem raiseError_env (e : CmdError) (s : State) : (raiseError e s).env = s.env := rfl
@[simp] theorem raiseError_outcomes (e : CmdError) (s : State) : (raiseError e s).outcomes = s.outcomes ++ [.error e] := rfl
@[simp] theorem raiseError_trace (e : CmdError) (s : State) : (raiseError e s).trace = s.trace := rfl
@[simp] theorem raiseError_marks (e : CmdError) (s : State) : (raiseError e s).marks = s.marks := rfl
@[simp] theorem raiseError_draws (e : CmdError) (s : State) : (raiseError e s).draws = s.draws := rfl

/-! ### openWindow -/

@[simp] theorem openWindow_cfg (s : State) : (openWindow s).cfg = s.cfg := rfl
@[simp] theorem openWindow_constructed (s : State) : (openWindow s).constructed = s.constructed := rfl
@[simp] theorem openWindow_tp (s : State) : (openWindow s).tp = s.tp := rfl
@[simp] theorem openWindow_osc (s : State) : (openWindow s).osc = s.osc := rfl
@[simp] theorem openWindow_bitrate (s : State) : (openWindow s).bitrate = s.bitrate := rfl
@[simp] theorem openWindow_needsReinit (s : State) : (openWindow s).needsReinit = s.needsReinit := rfl
@[simp] theorem openWindow_cs (s : State) : (openWindow s).cs = .asserted := rfl
@[simp] theorem openWindow_job (s : State) : (openWindow s).job = s.job := rfl
@[simp] theorem openWindow_wire (s : State) : (openWindow s).wire = s.wire := rfl
@[simp] theorem openWindow_response (s : State) : (openWindow s).response = s.response := rfl
@[simp] theorem openWindow_mem (s : State) : (openWindow s).mem = s.mem := rfl
@[simp] theorem openWindow_mode (s : State) : (openWindow s).mode = s.mode := rfl
@[simp] theorem openWindow_window (s : State) : (openWindow s).window = some ⟨0, 0, 0, 0⟩ := rfl
@[simp] theorem openWindow_requested (s : State) : (openWindow s).requested = s.requested := rfl
@[simp] theorem openWindow_host (s : State) : (openWindow s).host = s.host := rfl
@[simp] theorem openWindow_spi (s : State) : (openWindow s).spi = s.spi := rfl
@[simp] theorem openWindow_env (s : State) : (openWindow s).env = s.env := rfl
@[simp] theorem openWindow_outcomes (s : State) : (openWindow s).outcomes = s.outcomes := rfl
@[simp] theorem openWindow_trace (s : State) : (openWindow s).trace = s.trace := rfl
@[simp] theorem openWindow_marks (s : State) : (openWindow s).marks = s.marks := rfl
@[simp] theorem openWindow_draws (s : State) : (openWindow s).draws = s.draws := rfl

/-! ### closeWindow -/

@[simp] theorem closeWindow_cfg (s : State) : (closeWindow s).cfg = s.cfg := rfl
@[simp] theorem closeWindow_constructed (s : State) : (closeWindow s).constructed = s.constructed := rfl
@[simp] theorem closeWindow_tp (s : State) : (closeWindow s).tp = s.tp := rfl
@[simp] theorem closeWindow_osc (s : State) : (closeWindow s).osc = s.osc := rfl
@[simp] theorem closeWindow_bitrate (s : State) : (closeWindow s).bitrate = s.bitrate := rfl
@[simp] theorem closeWindow_needsReinit (s : State) : (closeWindow s).needsReinit = s.needsReinit := rfl
@[simp] theorem closeWindow_cs (s : State) : (closeWindow s).cs = .released := rfl
@[simp] theorem closeWindow_job (s : State) : (closeWindow s).job = s.job := rfl
@[simp] theorem closeWindow_wire (s : State) : (closeWindow s).wire = s.wire := rfl
@[simp] theorem closeWindow_response (s : State) : (closeWindow s).response = s.response := rfl
@[simp] theorem closeWindow_mem (s : State) : (closeWindow s).mem = s.mem := rfl
@[simp] theorem closeWindow_mode (s : State) : (closeWindow s).mode = s.mode := rfl
@[simp] theorem closeWindow_window (s : State) : (closeWindow s).window = none := rfl
@[simp] theorem closeWindow_requested (s : State) : (closeWindow s).requested = s.requested := rfl
@[simp] theorem closeWindow_host (s : State) : (closeWindow s).host = s.host := rfl
@[simp] theorem closeWindow_spi (s : State) : (closeWindow s).spi = s.spi := rfl
@[simp] theorem closeWindow_env (s : State) : (closeWindow s).env = s.env := rfl
@[simp] theorem closeWindow_outcomes (s : State) : (closeWindow s).outcomes = s.outcomes := rfl
@[simp] theorem closeWindow_trace (s : State) : (closeWindow s).trace = s.trace := rfl
@[simp] theorem closeWindow_marks (s : State) : (closeWindow s).marks = s.marks := rfl
@[simp] theorem closeWindow_draws (s : State) : (closeWindow s).draws = s.draws := rfl

/-! ### endTransaction -/

@[simp] theorem endTransaction_cfg (sent received : List Byte) (s : State) : (endTransaction sent received s).cfg = s.cfg := rfl
@[simp] theorem endTransaction_constructed (sent received : List Byte) (s : State) : (endTransaction sent received s).constructed = s.constructed := rfl
@[simp] theorem endTransaction_tp (sent received : List Byte) (s : State) : (endTransaction sent received s).tp = s.tp := rfl
@[simp] theorem endTransaction_osc (sent received : List Byte) (s : State) : (endTransaction sent received s).osc = s.osc := rfl
@[simp] theorem endTransaction_bitrate (sent received : List Byte) (s : State) : (endTransaction sent received s).bitrate = s.bitrate := rfl
@[simp] theorem endTransaction_needsReinit (sent received : List Byte) (s : State) : (endTransaction sent received s).needsReinit = s.needsReinit := rfl
@[simp] theorem endTransaction_cs (sent received : List Byte) (s : State) : (endTransaction sent received s).cs = .released := rfl
@[simp] theorem endTransaction_job (sent received : List Byte) (s : State) : (endTransaction sent received s).job = s.job := rfl
@[simp] theorem endTransaction_wire (sent received : List Byte) (s : State) : (endTransaction sent received s).wire = s.wire := rfl
@[simp] theorem endTransaction_response (sent received : List Byte) (s : State) : (endTransaction sent received s).response = s.response := rfl
@[simp] theorem endTransaction_mem (sent received : List Byte) (s : State) : (endTransaction sent received s).mem = s.mem := rfl
@[simp] theorem endTransaction_mode (sent received : List Byte) (s : State) : (endTransaction sent received s).mode = s.mode := rfl
@[simp] theorem endTransaction_window (sent received : List Byte) (s : State) : (endTransaction sent received s).window = none := rfl
@[simp] theorem endTransaction_requested (sent received : List Byte) (s : State) : (endTransaction sent received s).requested = s.requested := rfl
@[simp] theorem endTransaction_host (sent received : List Byte) (s : State) : (endTransaction sent received s).host = s.host := rfl
@[simp] theorem endTransaction_spi (sent received : List Byte) (s : State) : (endTransaction sent received s).spi = s.spi := rfl
@[simp] theorem endTransaction_env (sent received : List Byte) (s : State) : (endTransaction sent received s).env = s.env := rfl
@[simp] theorem endTransaction_outcomes (sent received : List Byte) (s : State) : (endTransaction sent received s).outcomes = s.outcomes := rfl
@[simp] theorem endTransaction_trace (sent received : List Byte) (s : State) : (endTransaction sent received s).trace = s.trace ++ [⟨sent, received⟩] := rfl
@[simp] theorem endTransaction_marks (sent received : List Byte) (s : State) : (endTransaction sent received s).marks = s.marks := rfl
@[simp] theorem endTransaction_draws (sent received : List Byte) (s : State) : (endTransaction sent received s).draws = s.draws := rfl

/-! ### startJob -/

@[simp] theorem startJob_cfg (q : List Instr) (f : Finish) (s : State) : (startJob q f s).cfg = s.cfg := rfl
@[simp] theorem startJob_constructed (q : List Instr) (f : Finish) (s : State) : (startJob q f s).constructed = s.constructed := rfl
@[simp] theorem startJob_tp (q : List Instr) (f : Finish) (s : State) : (startJob q f s).tp = s.tp := rfl
@[simp] theorem startJob_osc (q : List Instr) (f : Finish) (s : State) : (startJob q f s).osc = s.osc := rfl
@[simp] theorem startJob_bitrate (q : List Instr) (f : Finish) (s : State) : (startJob q f s).bitrate = s.bitrate := rfl
@[simp] theorem startJob_needsReinit (q : List Instr) (f : Finish) (s : State) : (startJob q f s).needsReinit = s.needsReinit := rfl
@[simp] theorem startJob_cs (q : List Instr) (f : Finish) (s : State) : (startJob q f s).cs = s.cs := rfl
@[simp] theorem startJob_job (q : List Instr) (f : Finish) (s : State) : (startJob q f s).job = some ⟨q, f⟩ := rfl
@[simp] theorem startJob_wire (q : List Instr) (f : Finish) (s : State) : (startJob q f s).wire = s.wire := rfl
@[simp] theorem startJob_response (q : List Instr) (f : Finish) (s : State) : (startJob q f s).response = s.response := rfl
@[simp] theorem startJob_mem (q : List Instr) (f : Finish) (s : State) : (startJob q f s).mem = s.mem := rfl
@[simp] theorem startJob_mode (q : List Instr) (f : Finish) (s : State) : (startJob q f s).mode = s.mode := rfl
@[simp] theorem startJob_window (q : List Instr) (f : Finish) (s : State) : (startJob q f s).window = s.window := rfl
@[simp] theorem startJob_requested (q : List Instr) (f : Finish) (s : State) : (startJob q f s).requested = s.requested := rfl
@[simp] theorem startJob_host (q : List Instr) (f : Finish) (s : State) : (startJob q f s).host = s.host := rfl
@[simp] theorem startJob_spi (q : List Instr) (f : Finish) (s : State) : (startJob q f s).spi = s.spi := rfl
@[simp] theorem startJob_env (q : List Instr) (f : Finish) (s : State) : (startJob q f s).env = s.env := rfl
@[simp] theorem startJob_outcomes (q : List Instr) (f : Finish) (s : State) : (startJob q f s).outcomes = s.outcomes := rfl
@[simp] theorem startJob_trace (q : List Instr) (f : Finish) (s : State) : (startJob q f s).trace = s.trace := rfl
@[simp] theorem startJob_marks (q : List Instr) (f : Finish) (s : State) : (startJob q f s).marks = s.marks := rfl
@[simp] theorem startJob_draws (q : List Instr) (f : Finish) (s : State) : (startJob q f s).draws = s.draws := rfl

/-! ### beginInstance -/

@[simp] theorem beginInstance_cfg (x y : Nat) (p : TimingParameters) (s : State) : (beginInstance x y p s).cfg = s.cfg := rfl
@[simp] theorem beginInstance_constructed (x y : Nat) (p : TimingParameters) (s : State) : (beginInstance x y p s).constructed = false := rfl
@[simp] theorem beginInstance_tp (x y : Nat) (p : TimingParameters) (s : State) : (beginInstance x y p s).tp = some p := rfl
@[simp] theorem beginInstance_osc (x y : Nat) (p : TimingParameters) (s : State) : (beginInstance x y p s).osc = some x := rfl
@[simp] theorem beginInstance_bitrate (x y : Nat) (p : TimingParameters) (s : State) : (beginInstance x y p s).bitrate = some y := rfl
@[simp] theorem beginInstance_needsReinit (x y : Nat) (p : TimingParameters) (s : State) : (beginInstance x y p s).needsReinit = s.needsReinit := rfl
@[simp] theorem beginInstance_cs (x y : Nat) (p : TimingParameters) (s : State) : (beginInstance x y p s).cs = s.cs := rfl
@[simp] theorem beginInstance_job (x y : Nat) (p : TimingParameters) (s : State) : (beginInstance x y p s).job = s.job := rfl
@[simp] theorem beginInstance_wire (x y : Nat) (p : TimingParameters) (s : State) : (beginInstance x y p s).wire = s.wire := rfl
@[simp] theorem beginInstance_response (x y : Nat) (p : TimingParameters) (s : State) : (beginInstance x y p s).response = s.response := rfl
@[simp] theorem beginInstance_mem (x y : Nat) (p : TimingParameters) (s : State) : (beginInstance x y p s).mem = s.mem := rfl
@[simp] theorem beginInstance_mode (x y : Nat) (p : TimingParameters) (s : State) : (beginInstance x y p s).mode = s.mode := rfl
@[simp] theorem beginInstance_window (x y : Nat) (p : TimingParameters) (s : State) : (beginInstance x y p s).window = s.window := rfl
@[simp] theorem beginInstance_requested (x y : Nat) (p : TimingParameters) (s : State) : (beginInstance x y p s).requested = s.requested := rfl
@[simp] theorem beginInstance_host (x y : Nat) (p : TimingParameters) (s : State) : (beginInstance x y p s).host = s.host := rfl
@[simp] theorem beginInstance_spi (x y : Nat) (p : TimingParameters) (s : State) : (beginInstance x y p s).spi = s.spi := rfl
@[simp] theorem beginInstance_env (x y : Nat) (p : TimingParameters) (s : State) : (beginInstance x y p s).env = s.env := rfl
@[simp] theorem beginInstance_outcomes (x y : Nat) (p : TimingParameters) (s : State) : (beginInstance x y p s).outcomes = s.outcomes := rfl
@[simp] theorem beginInstance_trace (x y : Nat) (p : TimingParameters) (s : State) : (beginInstance x y p s).trace = s.trace := rfl
@[simp] theorem beginInstance_marks (x y : Nat) (p : TimingParameters) (s : State) : (beginInstance x y p s).marks = s.marks := rfl
@[simp] theorem beginInstance_draws (x y : Nat) (p : TimingParameters) (s : State) : (beginInstance x y p s).draws = s.draws := rfl

/-! ### instanceReady -/

@[simp] theorem instanceReady_cfg (s : State) : (instanceReady s).cfg = s.cfg := rfl
@[simp] theorem instanceReady_constructed (s : State) : (instanceReady s).constructed = true := rfl
@[simp] theorem instanceReady_tp (s : State) : (instanceReady s).tp = s.tp := rfl
@[simp] theorem instanceReady_osc (s : State) : (instanceReady s).osc = s.osc := rfl
@[simp] theorem instanceReady_bitrate (s : State) : (instanceReady s).bitrate = s.bitrate := rfl
@[simp] theorem instanceReady_needsReinit (s : State) : (instanceReady s).needsReinit = false := rfl
@[simp] theorem instanceReady_cs (s : State) : (instanceReady s).cs = s.cs := rfl
@[simp] theorem instanceReady_job (s : State) : (instanceReady s).job = s.job := rfl
@[simp] theorem instanceReady_wire (s : State) : (instanceReady s).wire = s.wire := rfl
@[simp] theorem instanceReady_response (s : State) : (instanceReady s).response = s.response := rfl
@[simp] theorem instanceReady_mem (s : State) : (instanceReady s).mem = s.mem := rfl
@[simp] theorem instanceReady_mode (s : State) : (instanceReady s).mode = s.mode := rfl
@[simp] theorem instanceReady_window (s : State) : (instanceReady s).window = s.window := rfl
@[simp] theorem instanceReady_requested (s : State) : (instanceReady s).requested = s.requested := rfl
@[simp] theorem instanceReady_host (s : State) : (instanceReady s).host = s.host := rfl
@[simp] theorem instanceReady_spi (s : State) : (instanceReady s).spi = s.spi := rfl
@[simp] theorem instanceReady_env (s : State) : (instanceReady s).env = s.env := rfl
@[simp] theorem instanceReady_outcomes (s : State) : (instanceReady s).outcomes = s.outcomes := rfl
@[simp] theorem instanceReady_trace (s : State) : (instanceReady s).trace = s.trace := rfl
@[simp] theorem instanceReady_marks (s : State) : (instanceReady s).marks = s.marks := rfl
@[simp] theorem instanceReady_draws (s : State) : (instanceReady s).draws = s.draws := rfl

/-! ### reinitDone -/

@[simp] theorem reinitDone_cfg (s : State) : (reinitDone s).cfg = s.cfg := rfl
@[simp] theorem reinitDone_constructed (s : State) : (reinitDone s).constructed = s.constructed := rfl
@[simp] theorem reinitDone_tp (s : State) : (reinitDone s).tp = s.tp := rfl
@[simp] theorem reinitDone_osc (s : State) : (reinitDone s).osc = s.osc := rfl
@[simp] theorem reinitDone_bitrate (s : State) : (reinitDone s).bitrate = s.bitrate := rfl
@[simp] theorem reinitDone_needsReinit (s : State) : (reinitDone s).needsReinit = false := rfl
@[simp] theorem reinitDone_cs (s : State) : (reinitDone s).cs = s.cs := rfl
@[simp] theorem reinitDone_job (s : State) : (reinitDone s).job = s.job := rfl
@[simp] theorem reinitDone_wire (s : State) : (reinitDone s).wire = s.wire := rfl
@[simp] theorem reinitDone_response (s : State) : (reinitDone s).response = s.response := rfl
@[simp] theorem reinitDone_mem (s : State) : (reinitDone s).mem = s.mem := rfl
@[simp] theorem reinitDone_mode (s : State) : (reinitDone s).mode = s.mode := rfl
@[simp] theorem reinitDone_window (s : State) : (reinitDone s).window = s.window := rfl
@[simp] theorem reinitDone_requested (s : State) : (reinitDone s).requested = s.requested := rfl
@[simp] theorem reinitDone_host (s : State) : (reinitDone s).host = s.host := rfl
@[simp] theorem reinitDone_spi (s : State) : (reinitDone s).spi = s.spi := rfl
@[simp] theorem reinitDone_env (s : State) : (reinitDone s).env = s.env := rfl
@[simp] theorem reinitDone_outcomes (s : State) : (reinitDone s).outcomes = s.outcomes := rfl
@[simp] theorem reinitDone_trace (s : State) : (reinitDone s).trace = s.trace := rfl
@[simp] theorem reinitDone_marks (s : State) : (reinitDone s).marks = s.marks := rfl
@[simp] theorem reinitDone_draws (s : State) : (reinitDone s).draws = s.draws := rfl

end Sys2Proof.Machine
end

