-- ==== Sys2Proof/Laws/Memory.lean ====
section
/-! SUPPORT. Memory and registers: a read after a write, the canonical form, and what a register holds after
each named update of the target. -/

namespace Sys2Proof.Machine

theorem Memory.read?_write_self (m : Memory) (a : Nat) (v : Byte) :
    Memory.read? (Memory.write m a v) a = some v := by
  induction m with
  | nil => simp [Memory.write, Memory.read?]
  | cons c m ih =>
    obtain ⟨b, w⟩ := c
    by_cases hlt : a < b
    · simp [Memory.write, Memory.read?, hlt]
    · by_cases heq : a = b
      · simp [Memory.write, Memory.read?, heq]
      · have hne : ¬ b = a := fun h => heq h.symm
        simp [Memory.write, Memory.read?, hlt, heq, hne, ih]

theorem Memory.read?_write_other (m : Memory) {a b : Nat} (v : Byte) (h : b ≠ a) :
    Memory.read? (Memory.write m a v) b = Memory.read? m b := by
  induction m with
  | nil => simp [Memory.write, Memory.read?, h.symm]
  | cons c m ih =>
    obtain ⟨d, w⟩ := c
    by_cases hlt : a < d
    · simp [Memory.write, Memory.read?, hlt, h.symm]
    · by_cases heq : a = d
      · subst heq
        simp [Memory.write, Memory.read?, h.symm]
      · simp [Memory.write, Memory.read?, hlt, heq, ih]

theorem Memory.rising_write {lo : Nat} {m : Memory} {a : Nat} (v : Byte) (hm : Memory.rising lo m = true)
    (hlo : lo ≤ a) (ha : a < regCount) : Memory.rising lo (Memory.write m a v) = true := by
  induction m generalizing lo with
  | nil => simp [Memory.write, Memory.rising, hlo, ha]
  | cons c m ih =>
    obtain ⟨d, w⟩ := c
    simp only [Memory.rising, Bool.and_eq_true, decide_eq_true_eq] at hm
    obtain ⟨⟨hd, hdr⟩, hrest⟩ := hm
    by_cases hlt : a < d
    · simp [Memory.write, Memory.rising, hlt, hlo, ha, hdr, hrest, Nat.succ_le_of_lt hlt]
    · by_cases heq : a = d
      · subst heq
        simp [Memory.write, Memory.rising, hlo, ha, hrest]
      · have h2 : d + 1 ≤ a := by omega
        simp [Memory.write, Memory.rising, hlt, heq, hd, hdr, ih hrest h2]

/-- A write inside the register space keeps the canonical form. -/
theorem Memory.wf_write {m : Memory} {a : Nat} (v : Byte) (hm : Memory.wf m = true) (ha : a < regCount) :
    Memory.wf (Memory.write m a v) = true :=
  Memory.rising_write v hm (Nat.zero_le a) ha

@[simp] theorem Memory.wf_nil : Memory.wf [] = true := rfl

/-! ### Registers -/

@[simp] theorem reg_setReg_self (s : State) (a : Nat) (v : Byte) : (s.setReg a v).reg a = v := by
  simp [State.reg, Memory.read?_write_self]

theorem reg_setReg_other (s : State) {a b : Nat} (v : Byte) (h : b ≠ a) : (s.setReg a v).reg b = s.reg b := by
  simp [State.reg, Memory.read?_write_other _ v h]

theorem reg_setReg (s : State) (a b : Nat) (v : Byte) :
    (s.setReg a v).reg b = if b = a then v else s.reg b := by
  by_cases h : b = a
  · subst h; simp
  · simp [h, reg_setReg_other]

/-- A register depends on the memory and the parameters alone. -/
theorem reg_congr {s t : State} (hm : t.mem = s.mem) (hc : t.cfg = s.cfg) (a : Nat) : t.reg a = s.reg a := by
  simp [State.reg, hm, hc]

@[simp] theorem reg_mark (s : State) (k : RunMark) (a : Nat) : (s.mark k).reg a = s.reg a := rfl
@[simp] theorem reg_drawByte (s : State) (a : Nat) : (drawByte s).2.reg a = s.reg a := rfl
@[simp] theorem reg_requestTx (s : State) (sel : Byte) (a : Nat) : (requestTx sel s).reg a = s.reg a := rfl
@[simp] theorem reg_deliver (s : State) (o : CmdOutcome) (a : Nat) : (deliver o s).reg a = s.reg a := rfl
@[simp] theorem reg_raiseError (s : State) (e : CmdError) (a : Nat) : (raiseError e s).reg a = s.reg a := rfl
@[simp] theorem reg_openWindow (s : State) (a : Nat) : (openWindow s).reg a = s.reg a := rfl
@[simp] theorem reg_closeWindow (s : State) (a : Nat) : (closeWindow s).reg a = s.reg a := rfl
@[simp] theorem reg_endTransaction (s : State) (x y : List Byte) (a : Nat) :
    (endTransaction x y s).reg a = s.reg a := rfl
@[simp] theorem reg_startJob (s : State) (q : List Instr) (f : Finish) (a : Nat) :
    (startJob q f s).reg a = s.reg a := rfl
@[simp] theorem reg_blockPowerUp (s : State) (a : Nat) : (blockPowerUp s).reg a = s.reg a := rfl
@[simp] theorem reg_targetReset (s : State) (a : Nat) : (targetReset s).reg a = powerUpByte s.cfg a := rfl
@[simp] theorem reg_targetPowerUp (s : State) (a : Nat) : (targetPowerUp s).reg a = powerUpByte s.cfg a := rfl

theorem reg_enterMode (s : State) (m : OperatingMode) (a : Nat) :
    (s.enterMode m).reg a =
      if a = s.cfg.statAddr then showMode s.cfg (s.reg s.cfg.statAddr) m else s.reg a := by
  have h : (s.enterMode m).reg a = (s.setReg s.cfg.statAddr (showMode s.cfg (s.reg s.cfg.statAddr) m)).reg a := rfl
  rw [h, reg_setReg]

@[simp] theorem reg_setWindow (s : State) (w : Option Window) (a : Nat) : (s.setWindow w).reg a = s.reg a := rfl
@[simp] theorem reg_setWire (s : State) (w : Option (List Byte)) (a : Nat) : (s.setWire w).reg a = s.reg a := rfl
@[simp] theorem reg_setResponse (s : State) (r : List Byte) (a : Nat) : (s.setResponse r).reg a = s.reg a := rfl
@[simp] theorem reg_setEnv (s : State) (e : List (List EnvStep)) (a : Nat) : (s.setEnv e).reg a = s.reg a := rfl
@[simp] theorem reg_setSpi (s : State) (v : List Verdict) (a : Nat) : (s.setSpi v).reg a = s.reg a := rfl
@[simp] theorem reg_setJob (s : State) (j : Option Job) (a : Nat) : (s.setJob j).reg a = s.reg a := rfl
@[simp] theorem reg_setHost (s : State) (h : List HostEvent) (a : Nat) : (s.setHost h).reg a = s.reg a := rfl
@[simp] theorem reg_setRequested (s : State) (r : TxRequests) (a : Nat) : (s.setRequested r).reg a = s.reg a := rfl
@[simp] theorem reg_beginInstance (s : State) (x y : Nat) (p : TimingParameters) (a : Nat) :
    (beginInstance x y p s).reg a = s.reg a := rfl
@[simp] theorem reg_instanceReady (s : State) (a : Nat) : (instanceReady s).reg a = s.reg a := rfl
@[simp] theorem reg_reinitDone (s : State) (a : Nat) : (reinitDone s).reg a = s.reg a := rfl

end Sys2Proof.Machine
end

