-- ==== Sys2Proof/Laws/Store.lean ====
section
/-! SUPPORT. What the register operations of the target can do, said once: the mode request, the single-byte
store, the bit-modify, and the two burst primitives. -/

namespace Sys2Proof.Machine

/-- `t` differs from `s` at most in the target, the environment's list, the marks and the free bytes used. -/
structure SameOutside (s t : State) : Prop where
  cfg : t.cfg = s.cfg
  constructed : t.constructed = s.constructed
  tp : t.tp = s.tp
  osc : t.osc = s.osc
  bitrate : t.bitrate = s.bitrate
  needsReinit : t.needsReinit = s.needsReinit
  cs : t.cs = s.cs
  job : t.job = s.job
  wire : t.wire = s.wire
  response : t.response = s.response
  host : t.host = s.host
  spi : t.spi = s.spi
  outcomes : t.outcomes = s.outcomes
  trace : t.trace = s.trace

theorem SameOutside.refl (s : State) : SameOutside s s := ⟨rfl, rfl, rfl, rfl, rfl, rfl, rfl, rfl, rfl, rfl, rfl, rfl, rfl, rfl⟩

theorem SameOutside.trans {s t u : State} (h : SameOutside s t) (k : SameOutside t u) : SameOutside s u :=
  ⟨k.cfg.trans h.cfg, k.constructed.trans h.constructed, k.tp.trans h.tp, k.osc.trans h.osc,
    k.bitrate.trans h.bitrate, k.needsReinit.trans h.needsReinit, k.cs.trans h.cs, k.job.trans h.job,
    k.wire.trans h.wire, k.response.trans h.response, k.host.trans h.host, k.spi.trans h.spi,
    k.outcomes.trans h.outcomes, k.trace.trans h.trace⟩

theorem sameOutside_setReg (s : State) (a : Nat) (v : Byte) : SameOutside s (s.setReg a v) :=
  ⟨rfl, rfl, rfl, rfl, rfl, rfl, rfl, rfl, rfl, rfl, rfl, rfl, rfl, rfl⟩
theorem sameOutside_enterMode (s : State) (m : OperatingMode) : SameOutside s (s.enterMode m) :=
  ⟨rfl, rfl, rfl, rfl, rfl, rfl, rfl, rfl, rfl, rfl, rfl, rfl, rfl, rfl⟩
theorem sameOutside_mark (s : State) (k : RunMark) : SameOutside s (s.mark k) :=
  ⟨rfl, rfl, rfl, rfl, rfl, rfl, rfl, rfl, rfl, rfl, rfl, rfl, rfl, rfl⟩
theorem sameOutside_drawByte (s : State) : SameOutside s (drawByte s).2 :=
  ⟨rfl, rfl, rfl, rfl, rfl, rfl, rfl, rfl, rfl, rfl, rfl, rfl, rfl, rfl⟩
theorem sameOutside_requestTx (s : State) (b : Byte) : SameOutside s (requestTx b s) :=
  ⟨rfl, rfl, rfl, rfl, rfl, rfl, rfl, rfl, rfl, rfl, rfl, rfl, rfl, rfl⟩
theorem sameOutside_targetReset (s : State) : SameOutside s (targetReset s) :=
  ⟨rfl, rfl, rfl, rfl, rfl, rfl, rfl, rfl, rfl, rfl, rfl, rfl, rfl, rfl⟩
theorem sameOutside_setWindow (s : State) (w : Option Window) : SameOutside s (s.setWindow w) :=
  ⟨rfl, rfl, rfl, rfl, rfl, rfl, rfl, rfl, rfl, rfl, rfl, rfl, rfl, rfl⟩

/-- A mode request that is not refused is granted or leaves the state (R234). -/
theorem modeRequest_ok {p : Byte} {s t : State} (h : modeRequest p s = .ok t) :
    ∃ req, modeOf s.cfg p = some req ∧
      ((modeGrant s.cfg s.mode req = true ∧ t = s.enterMode req) ∨
       (modeGrant s.cfg s.mode req = false ∧ t = s)) := by
  unfold modeRequest at h
  split at h
  · rename_i req hm
    refine ⟨req, hm, ?_⟩
    split at h
    · rename_i hg; cases h; exact .inl ⟨hg, rfl⟩
    · rename_i hg; cases h; exact .inr ⟨by simpa using hg, rfl⟩
  · cases h

/-- What a single-byte store that is not refused has done (R67). -/
theorem storeReg_ok {a : Nat} {v : Byte} {s t : State} (h : storeReg a v s = .ok t) :
    (isProtected s.cfg a = true ∧ s.mode ≠ .config ∧ t = s.mark (.protectedWrite a)) ∨
    (¬ (isProtected s.cfg a = true ∧ s.mode ≠ .config) ∧ a ≠ s.cfg.statAddr ∧ isNamed s.cfg a = true ∧
      (t = s.setReg a v ∨
        (a = s.cfg.ctrlAddr ∧ ∃ req, modeOf s.cfg (v &&& modeMask) = some req ∧
          modeGrant s.cfg s.mode req = true ∧ t = (s.setReg a v).enterMode req))) := by
  unfold storeReg at h
  split at h
  · rename_i hp
    simp only [Bool.and_eq_true, decide_eq_true_eq] at hp
    cases h
    exact .inl ⟨hp.1, hp.2, rfl⟩
  · rename_i hp
    simp only [Bool.and_eq_true, decide_eq_true_eq] at hp
    split at h
    · cases h
    · rename_i hs
      split at h
      · cases h
      · rename_i hn
        have hn' : isNamed s.cfg a = true := by simpa using hn
        refine .inr ⟨hp, hs, hn', ?_⟩
        split at h
        · rename_i hc
          obtain ⟨req, hm, ⟨hg, rfl⟩ | ⟨-, rfl⟩⟩ := modeRequest_ok h
          · exact .inr ⟨hc, req, hm, hg, rfl⟩
          · exact .inl rfl
        · cases h; exact .inl rfl

/-- What a bit-modify that is not refused has done (R141). -/
theorem modifyReg_ok {a : Nat} {m v : Byte} {s t : State} (h : modifyReg a m v s = .ok t) :
    (isProtected s.cfg a = true ∧ s.mode ≠ .config ∧
      ((m = 0 ∧ t = s) ∨ (m ≠ 0 ∧ t = s.mark (.protectedWrite a)))) ∨
    (¬ (isProtected s.cfg a = true ∧ s.mode ≠ .config) ∧ a ≠ s.cfg.statAddr ∧ isNamed s.cfg a = true ∧
      (t = s.setReg a (bitModify (s.reg a) m v) ∨
        (a = s.cfg.ctrlAddr ∧ m &&& modeMask ≠ 0 ∧ ∃ req, modeOf s.cfg (modeFieldAfter (s.reg a) m v) = some req ∧
          modeGrant s.cfg s.mode req = true ∧ t = (s.setReg a (bitModify (s.reg a) m v)).enterMode req))) := by
  unfold modifyReg at h
  split at h
  · rename_i hp
    simp only [Bool.and_eq_true, decide_eq_true_eq] at hp
    refine .inl ⟨hp.1, hp.2, ?_⟩
    split at h
    · rename_i hm; cases h; exact .inl ⟨hm, rfl⟩
    · rename_i hm; cases h; exact .inr ⟨hm, rfl⟩
  · rename_i hp
    simp only [Bool.and_eq_true, decide_eq_true_eq] at hp
    split at h
    · cases h
    · rename_i hs
      split at h
      · cases h
      · rename_i hn
        have hn' : isNamed s.cfg a = true := by simpa using hn
        refine .inr ⟨hp, hs, hn', ?_⟩
        split at h
        · rename_i hc
          obtain ⟨req, hm, ⟨hg, rfl⟩ | ⟨-, rfl⟩⟩ := modeRequest_ok h
          · exact .inr ⟨hc.1, hc.2, req, hm, hg, rfl⟩
          · exact .inl rfl
        · cases h; exact .inl rfl

theorem storeReg_sameOutside {a : Nat} {v : Byte} {s t : State} (h : storeReg a v s = .ok t) :
    SameOutside s t := by
  obtain ⟨-, -, rfl⟩ | ⟨-, -, -, rfl | ⟨-, req, -, -, rfl⟩⟩ := storeReg_ok h
  · exact sameOutside_mark s _
  · exact sameOutside_setReg s _ _
  · exact (sameOutside_setReg s _ _).trans (sameOutside_enterMode _ _)

theorem modifyReg_sameOutside {a : Nat} {m v : Byte} {s t : State} (h : modifyReg a m v s = .ok t) :
    SameOutside s t := by
  obtain ⟨-, -, ⟨-, rfl⟩ | ⟨-, rfl⟩⟩ | ⟨-, -, -, rfl | ⟨-, -, req, -, -, rfl⟩⟩ := modifyReg_ok h
  · exact SameOutside.refl _
  · exact sameOutside_mark s _
  · exact sameOutside_setReg s _ _
  · exact (sameOutside_setReg s _ _).trans (sameOutside_enterMode _ _)

/-- A sample changes nothing but the count of free bytes used (R69). -/
theorem sampleReg_snd (a : Nat) (s : State) :
    (sampleReg a s).2 = s ∨ (sampleReg a s).2 = (drawByte s).2 := by
  unfold sampleReg; split
  · exact .inl rfl
  · exact .inr rfl

/-- A sample of a named register is the register (R66). -/
theorem sampleReg_named {a : Nat} {s : State} (h : isNamed s.cfg a = true) : sampleReg a s = (s.reg a, s) := by
  simp [sampleReg, h]

/-! ### The store and the chip-select window

The stores look at the memory, the mode and the parameters alone, so they commute with a change of the
chip-select line, the decoder's window and the count of free bytes. -/

@[simp] theorem reg_rewindow (c : ChipSelect) (w : Option Window) (n : Nat) (s : State) (a : Nat) :
    (rewindow c w n s).reg a = s.reg a := rfl

@[simp] theorem rewindow_rewindow (c c' : ChipSelect) (w w' : Option Window) (n n' : Nat) (s : State) :
    rewindow c' w' n' (rewindow c w n s) = rewindow c' w' n' s := rfl
@[simp] theorem setWindow_rewindow (c : ChipSelect) (w w' : Option Window) (n : Nat) (s : State) :
    (rewindow c w n s).setWindow w' = rewindow c w' n s := rfl
@[simp] theorem drawByte_rewindow (c : ChipSelect) (w : Option Window) (n : Nat) (s : State) :
    drawByte (rewindow c w n s) = (Config.freeByte n, rewindow c w (n + 1) s) := rfl
theorem rewindow_self (s : State) : rewindow s.cs s.window s.draws s = s := rfl

theorem modeRequest_rewindow (p : Byte) (c : ChipSelect) (w : Option Window) (n : Nat) (s : State) :
    modeRequest p (rewindow c w n s) = (modeRequest p s).map (rewindow c w n) := by
  unfold modeRequest
  have h1 : (rewindow c w n s).cfg = s.cfg := rfl
  have h2 : (rewindow c w n s).mode = s.mode := rfl
  rw [h1, h2]
  cases modeOf s.cfg p with
  | none => rfl
  | some req => cases h : modeGrant s.cfg s.mode req <;> simp [h] <;> rfl

theorem storeReg_rewindow (a : Nat) (v : Byte) (c : ChipSelect) (w : Option Window) (n : Nat) (s : State) :
    storeReg a v (rewindow c w n s) = (storeReg a v s).map (rewindow c w n) := by
  unfold storeReg
  have h1 : (rewindow c w n s).cfg = s.cfg := rfl
  have h2 : (rewindow c w n s).mode = s.mode := rfl
  have h3 : (rewindow c w n s).setReg a v = rewindow c w n (s.setReg a v) := rfl
  rw [h1, h2, h3, modeRequest_rewindow]
  repeat' split
  all_goals rfl

theorem modifyReg_rewindow (a : Nat) (m v : Byte) (c : ChipSelect) (w : Option Window) (n : Nat) (s : State) :
    modifyReg a m v (rewindow c w n s) = (modifyReg a m v s).map (rewindow c w n) := by
  unfold modifyReg
  have h1 : (rewindow c w n s).cfg = s.cfg := rfl
  have h2 : (rewindow c w n s).mode = s.mode := rfl
  have h3 : (rewindow c w n s).setReg a (bitModify (s.reg a) m v) =
    rewindow c w n (s.setReg a (bitModify (s.reg a) m v)) := rfl
  rw [reg_rewindow, h1, h2, h3, modeRequest_rewindow]
  repeat' split
  all_goals rfl

theorem memWrite_rewindow (a : Nat) (d : List Byte) (c : ChipSelect) (w : Option Window) (n : Nat) (s : State) :
    memWrite a d (rewindow c w n s) = (memWrite a d s).map (rewindow c w n) := by
  induction d generalizing a s with
  | nil => rfl
  | cons v d ih =>
    simp only [memWrite, storeReg_rewindow]
    cases storeReg a v s with
    | error r => rfl
    | ok t => simpa [Except.map] using ih (a + 1) t

/-- What a burst of stores leaves alone. -/
theorem memWrite_sameOutside {a : Nat} {d : List Byte} {s t : State} (h : memWrite a d s = .ok t) :
    SameOutside s t := by
  induction d generalizing a s with
  | nil => cases h; exact SameOutside.refl _
  | cons v d ih =>
    simp only [memWrite] at h
    split at h
    · cases h
    · rename_i s' hs
      exact (storeReg_sameOutside hs).trans (ih h)

/-- What a store leaves of the target besides memory, mode and marks. -/
theorem storeReg_rest {a : Nat} {v : Byte} {s t : State} (h : storeReg a v s = .ok t) :
    t.window = s.window ∧ t.requested = s.requested ∧ t.env = s.env ∧ t.draws = s.draws := by
  obtain ⟨-, -, rfl⟩ | ⟨-, -, -, rfl | ⟨-, req, -, -, rfl⟩⟩ := storeReg_ok h <;> simp

theorem modifyReg_rest {a : Nat} {m v : Byte} {s t : State} (h : modifyReg a m v s = .ok t) :
    t.window = s.window ∧ t.requested = s.requested ∧ t.env = s.env ∧ t.draws = s.draws := by
  obtain ⟨-, -, ⟨-, rfl⟩ | ⟨-, rfl⟩⟩ | ⟨-, -, -, rfl | ⟨-, -, req, -, -, rfl⟩⟩ := modifyReg_ok h <;> simp

theorem memWrite_rest {a : Nat} {d : List Byte} {s t : State} (h : memWrite a d s = .ok t) :
    t.window = s.window ∧ t.requested = s.requested ∧ t.env = s.env ∧ t.draws = s.draws := by
  induction d generalizing a s with
  | nil => cases h; exact ⟨rfl, rfl, rfl, rfl⟩
  | cons v d ih =>
    simp only [memWrite] at h
    split at h
    · cases h
    · rename_i s' hs
      obtain ⟨h1, h2, h3, h4⟩ := storeReg_rest hs
      obtain ⟨k1, k2, k3, k4⟩ := ih h
      exact ⟨k1.trans h1, k2.trans h2, k3.trans h3, k4.trans h4⟩

/-- A burst in two parts is two bursts (R149 b). -/
theorem memWrite_append (a : Nat) (d e : List Byte) (s : State) :
    memWrite a (d ++ e) s = (memWrite a d s).bind (memWrite (a + d.length) e) := by
  induction d generalizing a s with
  | nil => simp [memWrite, Except.bind]
  | cons v d ih =>
    simp only [memWrite, List.cons_append, List.length_cons]
    cases storeReg a v s with
    | error r => rfl
    | ok t => simpa [show a + (d.length + 1) = a + 1 + d.length by omega] using ih (a + 1) t

/-- A burst of samples changes nothing but the count of free bytes used. -/
theorem memRead_snd (a n : Nat) (s : State) : ∃ k, (memRead a n s).2 = { s with draws := s.draws + k } := by
  induction n generalizing a s with
  | zero => exact ⟨0, rfl⟩
  | succ n ih =>
    simp only [memRead]
    obtain ⟨k, hk⟩ := ih (a + 1) (sampleReg a s).2
    rcases sampleReg_snd a s with h | h
    · exact ⟨k, by rw [hk, h]⟩
    · exact ⟨k + 1, by rw [hk, h]; simp [drawByte, Nat.add_comm, Nat.add_left_comm]⟩

@[simp] theorem memRead_length (a n : Nat) (s : State) : (memRead a n s).1.length = n := by
  induction n generalizing a s with
  | zero => rfl
  | succ n ih => simp [memRead, ih]

theorem sampleReg_setWindow (a : Nat) (w : Option Window) (s : State) :
    sampleReg a (s.setWindow w) = ((sampleReg a s).1, (sampleReg a s).2.setWindow w) := by
  by_cases h : isNamed s.cfg a = true <;> simp [sampleReg, h]
  rfl

theorem memRead_setWindow (a n : Nat) (w : Option Window) (s : State) :
    memRead a n (s.setWindow w) = ((memRead a n s).1, (memRead a n s).2.setWindow w) := by
  induction n generalizing a s with
  | zero => rfl
  | succ n ih => simp only [memRead, sampleReg_setWindow, ih]

/-- A burst of samples sees the registers and the count of free bytes alone. -/
theorem memRead_rewindow (a n d : Nat) (s : State) :
    ∃ bs k, ∀ c w, memRead a n (rewindow c w d s) = (bs, rewindow c w (d + k) s) := by
  induction n generalizing a d with
  | zero => exact ⟨[], 0, fun _ _ => rfl⟩
  | succ n ih =>
    by_cases hn : isNamed s.cfg a = true
    · obtain ⟨bs, k, h⟩ := ih (a + 1) d
      refine ⟨s.reg a :: bs, k, fun c w => ?_⟩
      have hs : sampleReg a (rewindow c w d s) = (s.reg a, rewindow c w d s) := by simp [sampleReg, hn]
      simp only [memRead, hs, h]
    · obtain ⟨bs, k, h⟩ := ih (a + 1) (d + 1)
      refine ⟨Config.freeByte d :: bs, k + 1, fun c w => ?_⟩
      have hs : sampleReg a (rewindow c w d s) = (Config.freeByte d, rewindow c w (d + 1) s) := by
        simp [sampleReg, hn]
      simp only [memRead, hs, h]
      simp only [show d + 1 + k = d + (k + 1) by omega]

/-- Each byte read of a named address is the register (R66). -/
theorem memRead_named {a n : Nat} {s : State} {j : Nat} (hj : j < n) (hn : isNamed s.cfg (a + j) = true) :
    (memRead a n s).1[j]? = some (s.reg (a + j)) := by
  induction n generalizing a s j with
  | zero => omega
  | succ n ih =>
    have hcfg : (sampleReg a s).2.cfg = s.cfg := by rcases sampleReg_snd a s with h | h <;> simp [h]
    have hmem : (sampleReg a s).2.mem = s.mem := by rcases sampleReg_snd a s with h | h <;> simp [h]
    cases j with
    | zero => simp [memRead, sampleReg_named (show isNamed s.cfg a = true from hn)]
    | succ j =>
      have e : a + (j + 1) = a + 1 + j := by omega
      simp only [memRead, List.getElem?_cons_succ]
      rw [e] at hn ⊢
      rw [ih (by omega) (by rw [hcfg]; exact hn), reg_congr hmem hcfg]

end Sys2Proof.Machine
end

