-- ==== Sys2Proof/Laws/Env.lean ====
section
/-! SUPPORT. What an ENV step can do (R38): which fields it leaves alone, and its effect on a register. -/

namespace Sys2Proof.Machine

theorem putBytes_sameOutside (a : Nat) (bs : List Byte) (s : State) : SameOutside s (putBytes a bs s) := by
  induction bs generalizing a s with
  | nil => exact SameOutside.refl _
  | cons b bs ih => exact (sameOutside_setReg s a b).trans (ih _ _)

/-- Bytes put into consecutive registers. -/
theorem putBytes_rest (a : Nat) (bs : List Byte) (s : State) :
    (putBytes a bs s).mode = s.mode ∧ (putBytes a bs s).window = s.window ∧ (putBytes a bs s).env = s.env ∧
    (putBytes a bs s).requested = s.requested ∧ (putBytes a bs s).marks = s.marks ∧
    (putBytes a bs s).draws = s.draws := by
  induction bs generalizing a s with
  | nil => exact ⟨rfl, rfl, rfl, rfl, rfl, rfl⟩
  | cons b bs ih => exact ih (a + 1) (s.setReg a b)

/-- A register outside the range keeps its value. -/
theorem reg_putBytes_outside {a x : Nat} {bs : List Byte} (s : State) (h : x < a ∨ a + bs.length ≤ x) :
    (putBytes a bs s).reg x = s.reg x := by
  induction bs generalizing a s with
  | nil => rfl
  | cons b bs ih =>
    simp only [List.length_cons] at h
    have h1 : (putBytes (a + 1) bs (s.setReg a b)).reg x = (s.setReg a b).reg x := ih _ (by omega)
    rw [show putBytes a (b :: bs) s = putBytes (a + 1) bs (s.setReg a b) from rfl, h1,
      reg_setReg_other s b (by omega)]

theorem setFlags_sameOutside (m : Byte) (s : State) : SameOutside s (setFlags m s) := sameOutside_setReg s _ _

theorem envStep_sameOutside (s : State) (e : EnvStep) : SameOutside s (envStep s e) := by
  cases e with
  | fillRx n block =>
    simp only [envStep, fillRx]
    split
    · exact SameOutside.refl _
    · exact (putBytes_sameOutside _ _ s).trans (setFlags_sameOutside _ _)
  | txDone n v =>
    simp only [envStep, finishTx]
    split
    · exact ⟨rfl, rfl, rfl, rfl, rfl, rfl, rfl, rfl, rfl, rfl, rfl, rfl, rfl, rfl⟩
    · exact SameOutside.refl _
  | _ => exact sameOutside_setReg s _ _

/-- An ENV step never changes the mode, the decoder's window, the marks or the free bytes used (R38). -/
theorem envStep_rest (s : State) (e : EnvStep) :
    (envStep s e).mode = s.mode ∧ (envStep s e).window = s.window ∧ (envStep s e).env = s.env ∧
    (envStep s e).marks = s.marks ∧ (envStep s e).draws = s.draws := by
  cases e with
  | fillRx n block =>
    simp only [envStep, fillRx]
    split
    · exact ⟨rfl, rfl, rfl, rfl, rfl⟩
    · obtain ⟨h1, h2, h3, -, h5, h6⟩ := putBytes_rest (rxBase n) (block.take blockLen) s
      exact ⟨h1, h2, h3, h5, h6⟩
  | txDone n v =>
    simp only [envStep, finishTx]
    split <;> exact ⟨rfl, rfl, rfl, rfl, rfl⟩
  | _ => exact ⟨rfl, rfl, rfl, rfl, rfl⟩

/-- A property that every ENV step keeps is kept by a gap between two bytes. -/
theorem envSlot_keeps {P : State → Prop} (henv : ∀ s e, P s → P (envStep s e))
    (hset : ∀ s e, P s → P (s.setEnv e)) {s : State} (h : P s) : P (envSlot s) := by
  unfold envSlot
  split
  · exact h
  · rename_i steps rest _
    have : ∀ (l : List EnvStep) (u : State), P u → P (l.foldl envStep u) := by
      intro l
      induction l with
      | nil => intro u hu; exact hu
      | cons e l ih => intro u hu; exact ih _ (henv u e hu)
    exact this steps _ (hset s rest h)

theorem setEnv_sameOutside (s : State) (e : List (List EnvStep)) : SameOutside s (s.setEnv e) :=
  ⟨rfl, rfl, rfl, rfl, rfl, rfl, rfl, rfl, rfl, rfl, rfl, rfl, rfl, rfl⟩

theorem envSlot_sameOutside (s : State) : SameOutside s (envSlot s) :=
  envSlot_keeps (P := SameOutside s) (fun u e h => h.trans (envStep_sameOutside u e))
    (fun u e h => h.trans (setEnv_sameOutside u e)) (SameOutside.refl s)

theorem envSlot_rest (s : State) :
    (envSlot s).mode = s.mode ∧ (envSlot s).window = s.window ∧ (envSlot s).marks = s.marks ∧
    (envSlot s).draws = s.draws := by
  refine envSlot_keeps (P := fun t => t.mode = s.mode ∧ t.window = s.window ∧ t.marks = s.marks ∧ t.draws = s.draws)
    (fun u e h => ?_) (fun u e h => h) ⟨rfl, rfl, rfl, rfl⟩
  obtain ⟨h1, h2, -, h4, h5⟩ := envStep_rest u e
  exact ⟨h1.trans h.1, h2.trans h.2.1, h4.trans h.2.2.1, h5.trans h.2.2.2⟩

end Sys2Proof.Machine
end

