-- ==== Sys2Proof/Laws/Operands.lean ====
section
/-! SUPPORT. The operand check of R131 and the well-formedness of R103 are one condition. -/

namespace Sys2Proof.Machine

theorem operandCheck_none (i : Instr) : operandCheck i = none ↔ i.wf = true := by
  cases i with
  | read a n =>
    by_cases h : a < 128
    · simp [operandCheck, Instr.wf, regCount, show ¬ 128 ≤ a by omega, h]; omega
    · simp [operandCheck, Instr.wf, regCount, show 128 ≤ a by omega]
  | write a d =>
    by_cases h : a < 128
    · simp [operandCheck, Instr.wf, regCount, show ¬ 128 ≤ a by omega, h, Nat.one_le_iff_ne_zero]
    · simp [operandCheck, Instr.wf, regCount, show 128 ≤ a by omega]
  | bitmod a m v =>
    by_cases h : a < 128
    · simp [operandCheck, Instr.wf, regCount, show ¬ 128 ≤ a by omega, h]
    · simp [operandCheck, Instr.wf, regCount, show 128 ≤ a by omega]
  | _ => simp [operandCheck, Instr.wf]

theorem wf_read {a n : Nat} : (Instr.read a n).wf = true ↔ a < 128 ∧ 1 ≤ n ∧ a + n ≤ 128 := by
  simp [Instr.wf, and_assoc]

theorem wf_write {a : Nat} {d : List Byte} : (Instr.write a d).wf = true ↔ a < 128 ∧ 1 ≤ d.length ∧ a + d.length ≤ 128 := by
  simp [Instr.wf, and_assoc]

theorem wf_bitmod {a : Nat} {m v : Byte} : (Instr.bitmod a m v).wf = true ↔ a < 128 := by
  simp [Instr.wf]

end Sys2Proof.Machine
end

