-- ==== Sys2Proof/Laws/Exchange.lean ====
section
/-! SUPPORT. What one exchange does when ENV does not step during it (`s.env = []`): the byte-serial decoder
gives the whole-transaction effect, for every prefix of the bytes. -/

namespace Sys2Proof.Machine

/-- The free bytes drawn from number `n` on. -/
def freeBytes : Nat → Nat → List Byte
  | _, 0 => []
  | n, k + 1 => Config.freeByte n :: freeBytes (n + 1) k

@[simp] theorem freeBytes_length (n k : Nat) : (freeBytes n k).length = k := by
  induction k generalizing n with
  | zero => rfl
  | succ k ih => simp [freeBytes, ih]

theorem envSlot_nil {s : State} (h : s.env = []) : envSlot s = s := by simp [envSlot, h]

@[simp] theorem setWindow_setWindow (s : State) (w w' : Option Window) :
    (s.setWindow w).setWindow w' = s.setWindow w' := rfl

theorem setWindow_eq_self {s : State} {w : Option Window} (h : s.window = w) : s.setWindow w = s := by
  subst h; rfl

/-- The data bytes of a READ (R135). -/
theorem clockBytes_read {s : State} {w : Window} (bs : List Byte) (he : s.env = []) (hw : s.window = some w)
    (hop : w.op = opRead) (hk : 2 ≤ w.k) (hb : w.ap + bs.length ≤ regCount) :
    clockBytes bs s = .ok ((memRead w.ap bs.length s).1, (memRead w.ap bs.length s).2.setWindow
      (some { w with k := w.k + bs.length, ap := w.ap + bs.length })) := by
  induction bs generalizing s w with
  | nil => simp [clockBytes, memRead, setWindow_eq_self hw]
  | cons b bs ih =>
    simp only [List.length_cons] at hb
    have hap : ¬ w.ap ≥ regCount := by omega
    have h0 : ¬ w.k = 0 := by omega
    have h1 : ¬ w.k = 1 := by omega
    have hstep : clockByte b s = .ok ((sampleReg w.ap s).1,
        (sampleReg w.ap s).2.setWindow (some { w with k := w.k + 1, ap := w.ap + 1 })) := by
      simp [clockByte, envSlot_nil he, hw, h0, h1, dataByte, hop, hap]
    have henv : (sampleReg w.ap s).2.env = [] := by
      rcases sampleReg_snd w.ap s with h | h <;> rw [h] <;> simpa using he
    simp only [clockBytes, hstep]
    rw [ih (w := { w with k := w.k + 1, ap := w.ap + 1 }) (by simpa using henv) rfl hop (by simp; omega) (by simp; omega)]
    simp only [memRead_setWindow, setWindow_setWindow, memRead, List.length_cons]
    simp only [show w.ap + 1 + bs.length = w.ap + (bs.length + 1) by omega,
      show w.k + 1 + bs.length = w.k + (bs.length + 1) by omega]

/-- The data bytes of a WRITE (R138). -/
theorem clockBytes_write {s : State} {w : Window} (bs : List Byte) (he : s.env = []) (hw : s.window = some w)
    (hop : w.op = opWrite) (hk : 2 ≤ w.k) (hb : w.ap + bs.length ≤ regCount) :
    clockBytes bs s = (memWrite w.ap bs s).map (fun t => (freeBytes s.draws bs.length,
      rewindow s.cs (some { w with k := w.k + bs.length, ap := w.ap + bs.length }) (s.draws + bs.length) t)) := by
  induction bs generalizing s w with
  | nil =>
    have h : rewindow s.cs (some w) s.draws s = s := by rw [← hw]; rfl
    simp [clockBytes, memWrite, Except.map, freeBytes, h]
  | cons b bs ih =>
    simp only [List.length_cons] at hb
    have hap : ¬ w.ap ≥ regCount := by omega
    have h0 : ¬ w.k = 0 := by omega
    have h1 : ¬ w.k = 1 := by omega
    have hne : ¬ opWrite = opRead := by decide
    have hstep : clockByte b s = (storeReg w.ap b s).map (fun t => (Config.freeByte s.draws,
        rewindow s.cs (some { w with k := w.k + 1, ap := w.ap + 1 }) (s.draws + 1) t)) := by
      simp only [clockByte, envSlot_nil he, hw, h0, h1, dataByte, hop, hne, hap, if_false, if_true]
      cases hs : storeReg w.ap b s with
      | error r => rfl
      | ok t =>
        have h : t.setWindow (some { w with k := w.k + 1, ap := w.ap + 1 }) =
            rewindow s.cs (some { w with k := w.k + 1, ap := w.ap + 1 }) s.draws t := by
          rw [← (storeReg_rest hs).2.2.2, ← (storeReg_sameOutside hs).cs]; rfl
        simp only [Except.map, hop] at h ⊢
        rw [h, drawByte_rewindow]
    simp only [clockBytes, hstep, memWrite]
    cases hs : storeReg w.ap b s with
    | error r => rfl
    | ok t =>
      obtain ⟨-, -, henv, -⟩ := storeReg_rest hs
      simp only [Except.map]
      rw [ih (w := { w with k := w.k + 1, ap := w.ap + 1 }) (by simpa [henv] using he) rfl hop
        (by simp; omega) (by simp; omega)]
      simp only [memWrite_rewindow]
      cases memWrite (w.ap + 1) bs t with
      | error r => rfl
      | ok u =>
        simp only [Except.map, rewindow_rewindow, rewindow_cs, rewindow_draws, List.length_cons, freeBytes,
          show w.ap + 1 + bs.length = w.ap + (bs.length + 1) by omega,
          show w.k + 1 + bs.length = w.k + (bs.length + 1) by omega,
          show s.draws + 1 + bs.length = s.draws + (bs.length + 1) by omega]

/-- The opcode byte of READ, WRITE or BITMOD. -/
theorem clockByte_opcode {op : Byte} {s : State} (he : s.env = []) (hop : hasOperands op = true) :
    clockByte op (openWindow s) = .ok (Config.freeByte s.draws,
      rewindow .asserted (some ⟨1, op, 0, 0⟩) (s.draws + 1) s) := by
  have h : (openWindow s).env = [] := he
  have hr : ¬ op = opReset := by rintro rfl; exact absurd hop (by decide)
  have ho : opcodeByte op (openWindow s) = .ok ((openWindow s).setWindow (some ⟨1, op, 0, 0⟩)) := by
    simp only [hasOperands, Bool.or_eq_true, decide_eq_true_eq] at hop
    rcases hop with (rfl | rfl) | rfl <;> rfl
  simp only [clockByte, envSlot_nil h, openWindow_window, if_true, ho, Except.map]
  rfl

/-- The address byte after it (R148). -/
theorem clockByte_address {op b : Byte} {s : State} {n : Nat} (he : s.env = []) (hop : hasOperands op = true)
    (hb : b.toNat < regCount) :
    clockByte b (rewindow .asserted (some ⟨1, op, 0, 0⟩) n s) = .ok (Config.freeByte n,
      rewindow .asserted (some ⟨2, op, b.toNat, 0⟩) (n + 1) s) := by
  have h : (rewindow .asserted (some ⟨1, op, 0, 0⟩) n s).env = [] := he
  have hb' : ¬ b.toNat ≥ regCount := by omega
  unfold clockByte
  rw [envSlot_nil h]
  simp [addressByte, hop, hb', Except.map]

/-- The opcode and address bytes of READ, WRITE or BITMOD, then the rest. -/
theorem clockBytes_header {op b : Byte} {s : State} (rest : List Byte) (he : s.env = [])
    (hop : hasOperands op = true) (hb : b.toNat < regCount) :
    clockBytes (op :: b :: rest) (openWindow s) =
      (clockBytes rest (rewindow .asserted (some ⟨2, op, b.toNat, 0⟩) (s.draws + 2) s)).map
        (fun p => (Config.freeByte s.draws :: Config.freeByte (s.draws + 1) :: p.1, p.2)) := by
  simp only [clockBytes, clockByte_opcode he hop, clockByte_address he hop hb]
  cases clockBytes rest (rewindow .asserted (some ⟨2, op, b.toNat, 0⟩) (s.draws + 2) s) with
  | error r => rfl
  | ok p => rfl

/-! ### Every prefix of every instruction -/

theorem getLsb_address {a : Nat} (h : a < regCount) : (BitVec.ofNat 8 a).toNat = a := by
  simp only [regCount] at h
  simp only [BitVec.toNat_ofNat]
  omega

/-- What is said of an exchange of the first k bytes of `i`: the target has the prefix's effect, as many bytes
come back as went out, and a whole transaction passes the check at the release and carries the response. -/
structure PrefixRun (i : Instr) (k : Nat) (s : State) (rx : List Byte) (w : Window) (n : Nat) : Prop where
  effect : clockBytes ((encode i).take k) (openWindow s) =
    (prefixEffect i k s).map (fun t => (rx, rewindow .asserted (some w) n t))
  length : rx.length = min k (encode i).length
  release : (encode i).length ≤ k → releaseCheck (some w) = none
  response : (encode i).length ≤ k → responseOf i rx = wholeResponse i s

/-- Format Z: the one byte has its effect and the window rests after it. -/
theorem prefixRun_z {i : Instr} {op : Byte} {f : State → State} {s : State} (he : s.env = [])
    (henc : encode i = [op]) (hop : hasOperands op = false)
    (hbyte : opcodeByte op (openWindow s) = .ok (rewindow .asserted (some ⟨1, op, 0, 0⟩) s.draws (f s)))
    (heff : ∀ k, prefixEffect i k s = .ok (if k ≥ 1 then f s else s))
    (hresp : ∀ rx, responseOf i rx = wholeResponse i s) (k : Nat) :
    ∃ rx w n, PrefixRun i k s rx w n := by
  have h : (openWindow s).env = [] := he
  simp only [hasOperands, Bool.or_eq_false_iff, decide_eq_false_iff_not] at hop
  cases k with
  | zero =>
    exact ⟨[], ⟨0, 0, 0, 0⟩, s.draws, by simp [clockBytes, heff, Except.map]; rfl, by simp, by simp [henc], by simp [henc]⟩
  | succ k =>
    refine ⟨[Config.freeByte s.draws], ⟨1, op, 0, 0⟩, s.draws + 1, ?_, by simp [henc], fun _ => ?_, fun _ => hresp _⟩
    · simp only [henc, List.take_succ_cons, List.take_nil, clockBytes, clockByte, envSlot_nil h, openWindow_window,
        if_true, hbyte, heff, Except.map, drawByte_rewindow]
      simp
    · simp [releaseCheck, hop.1.1, hop.1.2, hop.2]

/-- Formats R, W and M: fewer than two bytes have no effect, and after two the operand bytes decide. -/
theorem prefixRun_header {i : Instr} {op b : Byte} {rest : List Byte} {s : State} (he : s.env = [])
    (henc : encode i = op :: b :: rest) (hop : hasOperands op = true) (hb : b.toNat < regCount)
    (heff : ∀ k, k < 2 → prefixEffect i k s = .ok s)
    (hrest : ∀ k, ∃ rx w n, clockBytes (rest.take k) (rewindow .asserted (some ⟨2, op, b.toNat, 0⟩) (s.draws + 2) s) =
        (prefixEffect i (k + 2) s).map (fun t => (rx, rewindow .asserted (some w) n t)) ∧
      rx.length = min k rest.length ∧ (rest.length ≤ k → releaseCheck (some w) = none) ∧
      (rest.length ≤ k → ∀ x y, responseOf i (x :: y :: rx) = wholeResponse i s))
    (k : Nat) : ∃ rx w n, PrefixRun i k s rx w n := by
  match k with
  | 0 =>
    refine ⟨[], ⟨0, 0, 0, 0⟩, s.draws, ?_, by simp, by simp [henc], by simp [henc]⟩
    simp [clockBytes, heff 0 (by omega), Except.map]; rfl
  | 1 =>
    refine ⟨[Config.freeByte s.draws], ⟨1, op, 0, 0⟩, s.draws + 1, ?_, by simp [henc], by simp [henc], by simp [henc]⟩
    simp [henc, clockBytes, clockByte_opcode he hop, heff 1 (by omega), Except.map]
  | k + 2 =>
    obtain ⟨rx, w, n, h1, h2, h3, h4⟩ := hrest k
    refine ⟨Config.freeByte s.draws :: Config.freeByte (s.draws + 1) :: rx, w, n, ?_, ?_, ?_, ?_⟩
    · rw [henc, List.take_succ_cons, List.take_succ_cons, clockBytes_header _ he hop hb, h1]
      cases prefixEffect i (k + 2) s <;> rfl
    · simp [henc, h2]
    · intro hk; exact h3 (by simpa [henc] using hk)
    · intro hk; exact h4 (by simpa [henc] using hk) _ _

/-- What the target does with a prefix of an instruction is the prefix's whole-transaction effect (R145, R148). -/
theorem prefixRun {i : Instr} {s : State} (hi : operandCheck i = none) (he : s.env = []) (k : Nat) :
    ∃ rx w n, PrefixRun i k s rx w n := by
  cases i with
  | reset => exact prefixRun_z (op := opReset) (f := targetReset) he rfl rfl rfl (fun _ => rfl) (fun _ => rfl) k
  | rtsTxb0 => exact prefixRun_z (op := opRts0) (f := requestTx 0x01) he rfl rfl rfl (fun _ => rfl) (fun _ => rfl) k
  | rtsTxb1 => exact prefixRun_z (op := opRts1) (f := requestTx 0x02) he rfl rfl rfl (fun _ => rfl) (fun _ => rfl) k
  | rtsTxb2 => exact prefixRun_z (op := opRts2) (f := requestTx 0x04) he rfl rfl rfl (fun _ => rfl) (fun _ => rfl) k
  | rtsAll => exact prefixRun_z (op := opRtsAll) (f := requestTx 0x07) he rfl rfl rfl (fun _ => rfl) (fun _ => rfl) k
  | read a n =>
    obtain ⟨ha, h1, hn⟩ := wf_read.1 ((operandCheck_none _).1 hi)
    have hb := getLsb_address (show a < regCount from ha)
    refine prefixRun_header (op := opRead) (rest := List.replicate n fillByte) he rfl rfl (by rw [hb]; exact ha)
      (fun _ _ => rfl) (fun k => ?_) k
    obtain ⟨bs, d, hm⟩ := memRead_rewindow a (min k n) (s.draws + 2) s
    have hlen : (List.take k (List.replicate n fillByte)).length = min k n := by simp
    have hle : (BitVec.ofNat 8 a).toNat + (List.take k (List.replicate n fillByte)).length ≤ regCount := by
      rw [hb, hlen]; simp only [regCount]; omega
    refine ⟨bs, ⟨2 + min k n, opRead, a + min k n, 0⟩, s.draws + 2 + d, ?_, ?_, ?_, ?_⟩
    · rw [clockBytes_read (w := ⟨2, opRead, (BitVec.ofNat 8 a).toNat, 0⟩) _ (by simpa using he) rfl rfl (by simp)
        hle, hlen]
      simp only [hb, hm, setWindow_rewindow, prefixEffect, Except.map]
    · have h := congrArg (fun p => p.1.length) (hm .asserted none)
      simp only [memRead_length] at h
      simp [← h]
    · intro hk
      simp only [List.length_replicate] at hk
      simp [releaseCheck, opRead, opBitmod, show ¬ 2 + min k n < 3 by omega]
    · intro hk x y
      have h2 : min k n = n := by simp at hk; omega
      have h3 : (drawByte (drawByte s).2).2 = rewindow s.cs s.window (s.draws + 2) s := rfl
      rw [h2] at hm
      simp [responseOf, wholeResponse, h3, hm]
  | write a d =>
    obtain ⟨ha, hd, hn⟩ := wf_write.1 ((operandCheck_none _).1 hi)
    have hb := getLsb_address (show a < regCount from ha)
    refine prefixRun_header (op := opWrite) (rest := d) he rfl rfl (by rw [hb]; exact ha)
      (fun k hk => by simp [prefixEffect, show k - 2 = 0 by omega, memWrite]) (fun k => ?_) k
    refine ⟨freeBytes (s.draws + 2) (d.take k).length,
      ⟨2 + (d.take k).length, opWrite, a + (d.take k).length, 0⟩, s.draws + 2 + (d.take k).length, ?_, by simp, ?_, ?_⟩
    · rw [clockBytes_write (w := ⟨2, opWrite, (BitVec.ofNat 8 a).toNat, 0⟩) _ (by simpa using he) rfl rfl (by simp)
        (by simp only [hb, List.length_take, regCount]; omega)]
      simp only [hb, memWrite_rewindow, prefixEffect, Nat.add_sub_cancel]
      cases memWrite a (d.take k) s <;> rfl
    · intro hk; simp [releaseCheck, opWrite, opBitmod]; omega
    · intro _ _ _; rfl
  | bitmod a m v =>
    have ha := wf_bitmod.1 ((operandCheck_none _).1 hi)
    have hb := getLsb_address (show a < regCount from ha)
    refine prefixRun_header (op := opBitmod) (rest := [m, v]) he rfl rfl (by rw [hb]; exact ha)
      (fun k hk => by simp [prefixEffect, show ¬ k ≥ 4 by omega]) (fun k => ?_) k
    have hwin : ∀ (w : Window) (n : Nat), (rewindow .asserted (some w) n s).env = [] := fun _ _ => he
    have hm : ∀ n, clockByte m (rewindow .asserted (some ⟨2, opBitmod, a, 0⟩) n s) =
        .ok (Config.freeByte n, rewindow .asserted (some ⟨3, opBitmod, a, m⟩) (n + 1) s) := by
      intro n
      unfold clockByte
      rw [envSlot_nil (hwin _ _)]
      rfl
    have hv : ∀ n, clockByte v (rewindow .asserted (some ⟨3, opBitmod, a, m⟩) n s) =
        (modifyReg a m v s).map (fun t => (Config.freeByte n, rewindow .asserted (some ⟨4, opBitmod, a, m⟩) (n + 1) t)) := by
      intro n
      unfold clockByte
      rw [envSlot_nil (hwin _ _)]
      simp only [rewindow_window, dataByte, modifyReg_rewindow]
      cases modifyReg a m v s <;> rfl
    rw [hb]
    match k with
    | 0 => exact ⟨[], ⟨2, opBitmod, a, 0⟩, s.draws + 2, rfl, rfl, by simp, by simp⟩
    | 1 => exact ⟨[Config.freeByte (s.draws + 2)], ⟨3, opBitmod, a, m⟩, s.draws + 3,
        by simp only [List.take_succ_cons, List.take_zero, clockBytes, hm]; rfl, rfl, by simp, by simp⟩
    | k + 2 =>
      refine ⟨[Config.freeByte (s.draws + 2), Config.freeByte (s.draws + 3)], ⟨4, opBitmod, a, m⟩, s.draws + 4,
        ?_, by simp, fun _ => rfl, fun _ _ _ => rfl⟩
      simp only [List.take_succ_cons, List.take_nil, clockBytes, hm, hv, prefixEffect]
      cases modifyReg a m v s <;> simp [Except.map]

/-! ### `issue` without an ENV step -/

theorem sentBytes_eq_take (v : Verdict) (i : Instr) :
    sentBytes v (encode i) = (encode i).take (receivedCount v i) := by
  cases v <;> simp [sentBytes, receivedCount]

theorem whole_prefix (i : Instr) (k : Nat) (s : State) (h : (encode i).length ≤ k) :
    prefixEffect i k s = wholeEffect i s := by
  cases i with
  | write a d =>
    simp only [encode, List.length_append, List.length_cons, List.length_nil] at h
    simp [prefixEffect, wholeEffect, List.take_of_length_le (show d.length ≤ k - 2 by omega)]
  | read a n => rfl
  | bitmod a m v => simp only [encode, List.length_cons, List.length_nil] at h; simp [prefixEffect, wholeEffect, show k ≥ 4 by omega]
  | _ =>
    simp only [encode, List.length_cons, List.length_nil] at h
    simp [prefixEffect, wholeEffect, show k ≥ 1 by omega]

/-- `issue` when ENV does not step during the exchange (R130, R145): the prefix's effect, then the end of the
transaction and the response or the error. -/
theorem issue_quiet {i : Instr} {s : State} (hi : i.wf = true) (he : s.env = []) :
    ∃ rx w n, rx.length = min (receivedCount (nextVerdict s).1 i) (encode i).length ∧
      (reachesEnd (nextVerdict s).1 = true → responseOf i rx = wholeResponse i (nextVerdict s).2) ∧
      issue i s = match prefixEffect i (receivedCount (nextVerdict s).1 i) (nextVerdict s).2 with
        | .error r => .refused r
        | .ok t => .next (concludeIssue i (returnedBytes (nextVerdict s).1 rx)
            (endTransaction (sentBytes (nextVerdict s).1 (encode i)) rx (rewindow .asserted (some w) n t))) := by
  have hi' := (operandCheck_none i).2 hi
  have he' : (nextVerdict s).2.env = [] := by unfold nextVerdict; split <;> simpa using he
  obtain ⟨rx, w, n, h⟩ := prefixRun hi' he' (receivedCount (nextVerdict s).1 i)
  refine ⟨rx, w, n, h.length, ?_, ?_⟩
  · intro hv
    refine h.response ?_
    revert hv; cases (nextVerdict s).1 <;> simp [reachesEnd, receivedCount]
  · have hrel : (if reachesEnd (nextVerdict s).1 then releaseCheck (some w) else none) = none := by
      split
      · rename_i hv
        refine h.release ?_
        revert hv; cases (nextVerdict s).1 <;> simp [reachesEnd, receivedCount]
      · rfl
    unfold issue
    simp only [hi']
    rw [sentBytes_eq_take, h.effect]
    cases prefixEffect i (receivedCount (nextVerdict s).1 i) (nextVerdict s).2 with
    | error r => rfl
    | ok t => simp only [Except.map, rewindow_window, hrel]

/-- `issue` with neither an ENV step nor a transport failure: the whole-transaction view (R132 to R144). -/
theorem issue_whole {i : Instr} {s : State} (hi : i.wf = true) (he : s.env = []) (hs : s.spi = []) :
    ∃ rx n, rx.length = (encode i).length ∧
      issue i s = match wholeEffect i s with
        | .error r => .refused r
        | .ok t => .next { t with
            cs := .released, window := none, draws := n, response := wholeResponse i s,
            trace := t.trace ++ [⟨encode i, rx⟩] } := by
  obtain ⟨rx, w, n, hl, hr, h⟩ := issue_quiet hi he
  have hv : nextVerdict s = (.ok, s) := by simp [nextVerdict, hs]
  simp only [hv, receivedCount, reachesEnd, Nat.min_self, forall_const] at hl hr h
  refine ⟨rx, n, hl, ?_⟩
  rw [h, whole_prefix i _ _ (Nat.le_refl _)]
  cases wholeEffect i s with
  | error r => rfl
  | ok t => simp only [returnedBytes, concludeIssue, hr]; rfl

end Sys2Proof.Machine
end

