-- ==== Sys2Proof/Laws/Step.lean ====
section
/-! SUPPORT. What a clocked byte, an exchange, `issue` and a step can do in general, ENV and failures included. -/

namespace Sys2Proof.Machine

/-- Every meaning is `issue` of its own instruction (R130). -/
theorem exec_eq_issue (i : Instr) (s : State) : exec i s = issue i s := by cases i <;> rfl

/-- The address pointer of a BITMOD in progress is an address. -/
def WindowOk (s : State) : Prop := ∀ w, s.window = some w → 2 ≤ w.k → w.op = opBitmod → w.ap < regCount

/-- What a property must be kept by to be kept by every clocked byte: ENV, the decoder's own bookkeeping, and the
target's effects. -/
structure KeptByTarget (P : State → Prop) : Prop where
  env : ∀ s e, P s → P (envStep s e)
  setEnv : ∀ s e, P s → P (s.setEnv e)
  setWindow : ∀ s w, P s → P (s.setWindow w)
  draw : ∀ s, P s → P (drawByte s).2
  reset : ∀ s, P s → P (targetReset s)
  request : ∀ s b, P s → P (requestTx b s)
  store : ∀ s t a v, a < regCount → P s → storeReg a v s = .ok t → P t
  modify : ∀ s t a m v, a < regCount → P s → modifyReg a m v s = .ok t → P t

theorem opcodeByte_keeps {P : State → Prop} (hP : KeptByTarget P) {b : Byte} {s t : State} (h : P s)
    (he : opcodeByte b s = .ok t) : P t ∧ t.window = some ⟨1, b, 0, 0⟩ := by
  simp only [opcodeByte] at he
  repeat' split at he
  all_goals first
    | (cases he; done)
    | (cases he; exact ⟨hP.reset _ (hP.setWindow _ _ h), rfl⟩)
    | (cases he; exact ⟨hP.request _ _ (hP.setWindow _ _ h), rfl⟩)
    | (cases he; exact ⟨hP.setWindow _ _ h, rfl⟩)

theorem addressByte_keeps {P : State → Prop} (hP : KeptByTarget P) {w : Window} {b : Byte} {s t : State} (h : P s)
    (he : addressByte w b s = .ok t) :
    P t ∧ t.window = some { w with k := 2, ap := b.toNat } ∧ b.toNat < regCount := by
  simp only [addressByte] at he
  repeat' split at he
  all_goals first
    | (cases he; done)
    | (rename_i hb; cases he; exact ⟨hP.setWindow _ _ h, rfl, by omega⟩)

theorem dataByte_keeps {P : State → Prop} (hP : KeptByTarget P) {w : Window} {b o : Byte} {s t : State}
    (h : P s) (hw : s.window = some w) (hok : WindowOk s) (h2 : 2 ≤ w.k) (he : dataByte w b s = .ok (o, t)) :
    P t ∧ WindowOk t := by
  have hbit : ∀ w' : Window, t.window = some w' → w'.op = w.op → (w.op = opBitmod → w'.ap = w.ap) → WindowOk t := by
    intro w' hw' hop hap v hv hk hvop
    rw [hw'] at hv; cases hv
    rw [hop] at hvop
    rw [hap hvop]
    exact hok w hw h2 hvop
  simp only [dataByte] at he
  split at he
  · rename_i hr
    split at he
    · cases he
    · cases he
      refine ⟨hP.setWindow _ _ ?_, hbit _ rfl rfl (fun hb => absurd (hr.symm.trans hb) (by decide))⟩
      rcases sampleReg_snd w.ap s with e | e <;> rw [e]
      · exact h
      · exact hP.draw _ h
  · split at he
    · rename_i hwr
      split at he
      · cases he
      · split at he
        · cases he
        · rename_i s' hs
          cases he
          exact ⟨hP.draw _ (hP.setWindow _ _ (hP.store _ _ _ _ (by omega) h hs)),
            hbit _ rfl rfl (fun hb => absurd (hwr.symm.trans hb) (by decide))⟩
    · split at he
      · rename_i hb
        split at he
        · cases he
          exact ⟨hP.draw _ (hP.setWindow _ _ h), hbit _ rfl rfl (fun _ => rfl)⟩
        · split at he
          · split at he
            · cases he
            · rename_i s' hs
              cases he
              exact ⟨hP.draw _ (hP.setWindow _ _ (hP.modify _ _ _ _ _ (hok w hw h2 hb) h hs)),
                hbit _ rfl rfl (fun _ => rfl)⟩
          · cases he
      · cases he

theorem clockByte_keeps {P : State → Prop} (hP : KeptByTarget P) {b o : Byte} {s t : State} (h : P s)
    (hok : WindowOk s) (he : clockByte b s = .ok (o, t)) : P t ∧ WindowOk t := by
  have h' : P (envSlot s) := envSlot_keeps hP.env hP.setEnv h
  have hwin : (envSlot s).window = s.window := (envSlot_rest s).2.1
  have hok' : WindowOk (envSlot s) := by intro w hw; exact hok w (hwin ▸ hw)
  simp only [clockByte] at he
  split at he
  · rename_i hw
    cases he
    exact ⟨hP.draw _ h', fun w hw' => by simp [hw] at hw'⟩
  · rename_i w hw
    split at he
    · cases hop : opcodeByte b (envSlot s) with
      | error r => rw [hop] at he; cases he
      | ok u =>
        rw [hop] at he; cases he
        obtain ⟨hu, huw⟩ := opcodeByte_keeps hP h' hop
        refine ⟨hP.draw _ hu, fun v hv hk => ?_⟩
        have hv' : u.window = some v := hv
        rw [huw] at hv'; cases hv'; simp at hk
    · split at he
      · cases hop : addressByte w b (envSlot s) with
        | error r => rw [hop] at he; cases he
        | ok u =>
          rw [hop] at he; cases he
          obtain ⟨hu, huw, hb⟩ := addressByte_keeps hP h' hop
          refine ⟨hP.draw _ hu, fun v hv _ _ => ?_⟩
          have hv' : u.window = some v := hv
          rw [huw] at hv'; cases hv'; exact hb
      · exact dataByte_keeps hP h' hw hok' (by omega) he

theorem clockBytes_keeps {P : State → Prop} (hP : KeptByTarget P) {bs rx : List Byte} {s t : State} (h : P s)
    (hok : WindowOk s) (he : clockBytes bs s = .ok (rx, t)) : P t := by
  induction bs generalizing s rx with
  | nil => cases he; exact h
  | cons b bs ih =>
    simp only [clockBytes] at he
    split at he
    · cases he
    · rename_i o s' hs
      obtain ⟨h1, h2⟩ := clockByte_keeps hP h hok hs
      split at he
      · cases he
      · rename_i os u hu
        cases he
        exact ih h1 h2 hu

theorem windowOk_openWindow (s : State) : WindowOk (openWindow s) := by
  intro w hw hk; simp at hw; subst hw; simp at hk

theorem keptByTarget_sameOutside (s₀ : State) : KeptByTarget (SameOutside s₀) where
  env s e h := h.trans (envStep_sameOutside s e)
  setEnv s e h := h.trans (setEnv_sameOutside s e)
  setWindow s w h := h.trans (sameOutside_setWindow s w)
  draw s h := h.trans (sameOutside_drawByte s)
  reset s h := h.trans (sameOutside_targetReset s)
  request s b h := h.trans (sameOutside_requestTx s b)
  store _ _ _ _ _ h he := h.trans (storeReg_sameOutside he)
  modify _ _ _ _ _ _ h he := h.trans (modifyReg_sameOutside he)

/-- One byte comes back for each byte clocked (R32). -/
theorem clockBytes_length {bs rx : List Byte} {s t : State} (h : clockBytes bs s = .ok (rx, t)) :
    rx.length = bs.length := by
  induction bs generalizing s rx with
  | nil => cases h; rfl
  | cons b bs ih =>
    simp only [clockBytes] at h
    split at h
    · cases h
    · split at h
      · cases h
      · rename_i hu; cases h; simp [ih hu]

/-- What `issue` has done when it answers a next state: an exchange that changed the target alone, then the end of
the transaction (R130). -/
theorem issue_next {i : Instr} {s t : State} (h : issue i s = .next t) :
    i.wf = true ∧ ∃ rx u, clockBytes (sentBytes (nextVerdict s).1 (encode i)) (openWindow (nextVerdict s).2) = .ok (rx, u) ∧
      SameOutside (openWindow (nextVerdict s).2) u ∧
      t = concludeIssue i (returnedBytes (nextVerdict s).1 rx)
        (endTransaction (sentBytes (nextVerdict s).1 (encode i)) rx u) := by
  unfold issue at h
  split at h
  · cases h
  · rename_i hi
    refine ⟨(operandCheck_none i).1 hi, ?_⟩
    simp only at h
    split at h
    · cases h
    · rename_i rx u hu
      split at h
      · cases h
      · cases h
        exact ⟨rx, u, hu, clockBytes_keeps (keptByTarget_sameOutside _) (SameOutside.refl _)
          (windowOk_openWindow _) hu, rfl⟩

/-- A property kept by the target, by the opening and the end of a transaction, and by what the block does with the
answer is kept by every instruction. -/
theorem issue_keeps {P : State → Prop} (hP : KeptByTarget P) (hspi : ∀ s v, P s → P (s.setSpi v))
    (hopen : ∀ s, P s → P (openWindow s)) (hend : ∀ s x y, P s → P (endTransaction x y s))
    (hresp : ∀ s r, P s → P (s.setResponse r)) (hraise : ∀ s e, P s → P (raiseError e s))
    {i : Instr} {s t : State} (hs : P s) (h : issue i s = .next t) : P t := by
  obtain ⟨-, rx, u, hu, -, rfl⟩ := issue_next h
  have h0 : P (nextVerdict s).2 := by
    unfold nextVerdict; split
    · exact hs
    · exact hspi _ _ hs
  have h1 := hend u (sentBytes (nextVerdict s).1 (encode i)) rx
    (clockBytes_keeps hP (hopen _ h0) (windowOk_openWindow _) hu)
  unfold concludeIssue
  split
  · exact hresp _ _ h1
  · exact hraise _ _ h1

/-- The two kinds of step: a transaction is executed, or the block moves. -/
theorem step_next {s t : State} (h : step s = .next t) :
    (∃ tx i, s.wire = some tx ∧ decode tx = .ok i ∧ exec i (s.setWire none) = .next t) ∨
    (s.wire = none ∧ advance s = .next t) := by
  unfold step at h
  split at h
  · rename_i tx htx
    split at h
    · rename_i i hi; exact .inl ⟨tx, i, htx, hi, h⟩
    · cases h
  · rename_i hw; exact .inr ⟨hw, h⟩

end Sys2Proof.Machine
end

