-- ==== Sys2Proof/Laws/Run.lean ====
section
/-! SUPPORT. Running a command: consecutive steps, the two steps of one instruction when neither ENV nor the
transport interferes, and a whole queue of instructions. -/

namespace Sys2Proof.Machine

open Sys2Proof.Safety

/-! ### Consecutive steps -/

theorem runs_zero (s : State) : Runs 0 s s := rfl

/-- A step that answers a next state, and then the rest. -/
theorem runs_succ_iff {k : Nat} {s t u : State} (h : step s = .next t) : Runs (k + 1) s u ↔ Runs k t u := by
  have hs : Sys2Proof.core.step s = .next t := h
  unfold Runs
  rw [Host.Core.run.eq_2 Sys2Proof.core s k, hs]

theorem runs_succ {k : Nat} {s t u : State} (h : step s = .next t) (k' : Runs k t u) : Runs (k + 1) s u :=
  (runs_succ_iff h).2 k'

theorem runs_one {s t : State} (h : step s = .next t) : Runs 1 s t := runs_succ h (runs_zero t)

/-- Steps that are all taken begin with one that is. -/
theorem runs_first {k : Nat} {s u : State} (h : Runs (k + 1) s u) : ∃ t, step s = .next t := by
  cases hs : step s with
  | next t => exact ⟨t, rfl⟩
  | fault r =>
    have hc : Sys2Proof.core.step s = .fault r := hs
    unfold Runs at h
    rw [Host.Core.run.eq_2 Sys2Proof.core s k, hc] at h
    cases h
  | refused r =>
    have hc : Sys2Proof.core.step s = .refused r := hs
    unfold Runs at h
    rw [Host.Core.run.eq_2 Sys2Proof.core s k, hc] at h
    cases h

theorem runs_add {m n : Nat} {s t u : State} (h : Runs m s t) (k : Runs n t u) : Runs (m + n) s u := by
  induction m generalizing s with
  | zero =>
    have h' : (Host.Outcome.next s : Host.Outcome State Fault Refusal) = .next t := h
    cases h'
    rw [Nat.zero_add]
    exact k
  | succ m ih =>
    obtain ⟨v, hv⟩ := runs_first h
    rw [show m + 1 + n = m + n + 1 by omega]
    exact runs_succ hv (ih ((runs_succ_iff hv).1 h))

/-! ### The target's effects look at the target alone -/

/-- The target of `s` in the surroundings of `t`. -/
def withTarget (s t : State) : State :=
  { t with cfg := s.cfg, mem := s.mem, mode := s.mode, requested := s.requested, marks := s.marks }

theorem withTarget_self (s : State) : withTarget s s = s := rfl

@[simp] theorem reg_withTarget (s t : State) (a : Nat) : (withTarget s t).reg a = s.reg a := rfl

theorem modeRequest_withTarget (p : Byte) (s t : State) :
    modeRequest p (withTarget s t) = (modeRequest p s).map (withTarget · t) := by
  unfold modeRequest
  have h1 : (withTarget s t).cfg = s.cfg := rfl
  have h2 : (withTarget s t).mode = s.mode := rfl
  rw [h1, h2]
  cases modeOf s.cfg p with
  | none => rfl
  | some req => cases h : modeGrant s.cfg s.mode req <;> simp [h] <;> rfl

theorem storeReg_withTarget (a : Nat) (v : Byte) (s t : State) :
    storeReg a v (withTarget s t) = (storeReg a v s).map (withTarget · t) := by
  unfold storeReg
  have h1 : (withTarget s t).cfg = s.cfg := rfl
  have h2 : (withTarget s t).mode = s.mode := rfl
  have h3 : (withTarget s t).setReg a v = withTarget (s.setReg a v) t := rfl
  rw [h1, h2, h3, modeRequest_withTarget]
  repeat' split
  all_goals rfl

theorem modifyReg_withTarget (a : Nat) (m v : Byte) (s t : State) :
    modifyReg a m v (withTarget s t) = (modifyReg a m v s).map (withTarget · t) := by
  unfold modifyReg
  have h1 : (withTarget s t).cfg = s.cfg := rfl
  have h2 : (withTarget s t).mode = s.mode := rfl
  have h3 : (withTarget s t).setReg a (bitModify (s.reg a) m v) = withTarget (s.setReg a (bitModify (s.reg a) m v)) t := rfl
  rw [reg_withTarget, h1, h2, h3, modeRequest_withTarget]
  repeat' split
  all_goals rfl

theorem memWrite_withTarget (a : Nat) (d : List Byte) (s t : State) :
    memWrite a d (withTarget s t) = (memWrite a d s).map (withTarget · t) := by
  induction d generalizing a s with
  | nil => rfl
  | cons v d ih =>
    simp only [memWrite, storeReg_withTarget]
    cases storeReg a v s with
    | error r => rfl
    | ok u => simpa [Except.map] using ih (a + 1) u

/-- A whole instruction does to the target what it does in any other surroundings. -/
theorem wholeEffect_withTarget (i : Instr) (s t : State) :
    wholeEffect i (withTarget s t) = (wholeEffect i s).map (withTarget · t) := by
  cases i with
  | write a d => exact memWrite_withTarget a d s t
  | bitmod a m v => exact modifyReg_withTarget a m v s t
  | _ => rfl

/-- What a whole instruction leaves alone. -/
theorem wholeEffect_sameOutside {i : Instr} {s u : State} (h : wholeEffect i s = .ok u) :
    SameOutside s u ∧ u.env = s.env := by
  cases i with
  | write a d => exact ⟨memWrite_sameOutside h, (memWrite_rest h).2.2.1⟩
  | bitmod a m v => exact ⟨modifyReg_sameOutside h, (modifyReg_rest h).2.2.1⟩
  | _ => cases h; exact ⟨⟨rfl, rfl, rfl, rfl, rfl, rfl, rfl, rfl, rfl, rfl, rfl, rfl, rfl, rfl⟩, rfl⟩

/-! ### One instruction of a command -/

/-- What holds after the instructions `is` of a command have been issued without interference: the target is that of
`u`, the block is as it was, these instructions still wait. -/
structure Issued (is rest : List Instr) (f : Finish) (s u t : State) : Prop where
  cfg : t.cfg = s.cfg
  mem : t.mem = u.mem
  mode : t.mode = u.mode
  requested : t.requested = u.requested
  marks : t.marks = u.marks
  job : t.job = some ⟨rest, f⟩
  wire : t.wire = none
  released : t.cs = .released
  window : t.window = none
  constructed : t.constructed = s.constructed
  tp : t.tp = s.tp
  osc : t.osc = s.osc
  bitrate : t.bitrate = s.bitrate
  needsReinit : t.needsReinit = s.needsReinit
  host : t.host = s.host
  spi : t.spi = s.spi
  env : t.env = s.env
  outcomes : t.outcomes = s.outcomes
  sent : Sent is s t

/-- The response of a READ of named registers (R66). -/
theorem wholeResponse_named {a n : Nat} {s : State} (h : ∀ k, k < n → isNamed s.cfg (a + k) = true) :
    wholeResponse (.read a n) s = regsAt s a n := by
  refine List.ext_getElem? fun k => ?_
  by_cases hk : k < n
  · have h1 := memRead_named (s := (drawByte (drawByte s).2).2) hk (h k hk)
    simp only [wholeResponse, h1, regsAt, List.getElem?_map, List.getElem?_range hk, Option.map_some]
    rfl
  · have h1 : (wholeResponse (.read a n) s).length ≤ k := by simp [wholeResponse]; omega
    have h2 : (regsAt s a n).length ≤ k := by simp [regsAt]; omega
    rw [List.getElem?_eq_none h1, List.getElem?_eq_none h2]

/-- The two steps of one instruction: it is offered, and it is executed (R105, R130). -/
theorem run_issue {i : Instr} {q : List Instr} {f : Finish} {s u : State} (hw : s.wire = none)
    (hj : s.job = some ⟨i :: q, f⟩) (hq : Quiet s) (hi : i.wf = true) (hdec : decode (encode i) = .ok i)
    (hu : wholeEffect i s = .ok u) :
    ∃ t, Runs 2 s t ∧ Issued [i] q f s u t ∧
      ∀ a n, i = .read a n → (∀ k, k < n → isNamed s.cfg (a + k) = true) → t.response = regsAt s a n := by
  let s₁ : State := ((s.setResponse []).setWire (some (encode i))).setJob (some ⟨q, f⟩)
  let s₂ : State := s₁.setWire none
  have h1 : step s = .next s₁ := by
    unfold step; rw [hw]
    unfold advance; rw [hj]
  have hu₂ : wholeEffect i s₂ = .ok (withTarget u s₂) := by
    have : s₂ = withTarget s s₂ := rfl
    rw [this, wholeEffect_withTarget, hu]
    rfl
  obtain ⟨rx, n, -, h⟩ := issue_whole (s := s₂) hi hq.1 hq.2
  rw [hu₂] at h
  have h2 : step s₁ = exec i s₂ := by
    unfold step
    have hw₁ : s₁.wire = some (encode i) := rfl
    rw [hw₁]
    simp only [hdec]
    rfl
  rw [exec_eq_issue, h] at h2
  have hso := (wholeEffect_sameOutside hu).1
  refine ⟨_, runs_succ h1 (runs_one h2), ?_, ?_⟩
  · exact ⟨hso.cfg, rfl, rfl, rfl, rfl, rfl, rfl, rfl, rfl, rfl, rfl, rfl, rfl, rfl, rfl, rfl, rfl, rfl,
      ⟨[⟨encode i, rx⟩], rfl, rfl⟩⟩
  · rintro a m rfl hn
    exact wholeResponse_named (s := s₂) hn

/-! ### A whole queue -/

/-- The effects of instructions one after the other. -/
def effects : List Instr → State → Except Refusal State
  | [], s => .ok s
  | i :: is, s =>
    match wholeEffect i s with
    | .error r => .error r
    | .ok t => effects is t

theorem effects_withTarget (is : List Instr) (s t : State) :
    effects is (withTarget s t) = (effects is s).map (withTarget · t) := by
  induction is generalizing s with
  | nil => rfl
  | cons i is ih =>
    simp only [effects, wholeEffect_withTarget]
    cases wholeEffect i s with
    | error r => rfl
    | ok u => exact ih u

theorem effects_sameOutside {is : List Instr} {s u : State} (h : effects is s = .ok u) :
    SameOutside s u ∧ u.env = s.env := by
  induction is generalizing s with
  | nil => cases h; exact ⟨SameOutside.refl _, rfl⟩
  | cons i is ih =>
    simp only [effects] at h
    split at h
    · cases h
    · rename_i v hv
      have h1 := wholeEffect_sameOutside hv
      have h2 := ih h
      exact ⟨h1.1.trans h2.1, h2.2.trans h1.2⟩

theorem sent_append {is js : List Instr} {s t u : State} (h : Sent is s t) (k : Sent js t u) : Sent (is ++ js) s u := by
  obtain ⟨x, hx, hx'⟩ := h
  obtain ⟨y, hy, hy'⟩ := k
  exact ⟨x ++ y, by rw [hy, hx, List.append_assoc], by simp [hx', hy']⟩

/-- A queue of well-formed instructions runs to its end, two steps each (R105). -/
theorem run_queue {is : List Instr} {f : Finish} {s u : State} (hne : is ≠ []) (hw : s.wire = none)
    (hj : s.job = some ⟨is, f⟩) (hq : Quiet s) (hi : ∀ i ∈ is, i.wf = true ∧ decode (encode i) = .ok i)
    (hu : effects is s = .ok u) :
    ∃ t, Runs (2 * is.length) s t ∧ Issued is [] f s u t := by
  induction is generalizing s u with
  | nil => exact absurd rfl hne
  | cons i is ih =>
    simp only [effects] at hu
    split at hu
    · cases hu
    · rename_i v hv
      obtain ⟨t, ht, h, -⟩ := run_issue hw hj hq (hi i (by simp)).1 (hi i (by simp)).2 hv
      by_cases hn : is = []
      · subst hn
        cases hu
        exact ⟨t, ht, h⟩
      · have htv : t = withTarget v t := by
          have hc := (wholeEffect_sameOutside hv).1.cfg
          simp only [withTarget, ← h.mem, ← h.mode, ← h.requested, ← h.marks, hc, ← h.cfg]
        have hut : effects is t = .ok (withTarget u t) := by
          rw [htv, effects_withTarget, hu]; rfl
        obtain ⟨w, hw', k⟩ := ih hn h.wire h.job ⟨h.env.trans hq.1, h.spi.trans hq.2⟩
          (fun j hj => hi j (by simp [hj])) hut
        refine ⟨w, ?_, ?_⟩
        · rw [List.length_cons, show 2 * (is.length + 1) = 2 + 2 * is.length by omega]
          exact runs_add ht hw'
        · exact ⟨k.cfg.trans h.cfg, k.mem, k.mode, k.requested, k.marks, k.job, k.wire, k.released, k.window,
            k.constructed.trans h.constructed, k.tp.trans h.tp, k.osc.trans h.osc, k.bitrate.trans h.bitrate,
            k.needsReinit.trans h.needsReinit, k.host.trans h.host, k.spi.trans h.spi, k.env.trans h.env,
            k.outcomes.trans h.outcomes, sent_append h.sent k.sent⟩

end Sys2Proof.Machine
end

