-- ==== Sys2Proof/Laws/Canonical.lean ====
section
/-! SUPPORT. Every operation over memory keeps its canonical form, and every effect on the target keeps the mode
shown in the status register. -/

namespace Sys2Proof.Machine

open Sys2Proof.Safety

/-! ### What a legal parameter record says -/

/-- The control and status registers are two registers the fixed map does not name, neither a filter byte (D13). -/
theorem wf_spare {c : Cfg} (h : c.wf = true) :
    c.ctrlAddr ≠ c.statAddr ∧ isSpareAddr c c.ctrlAddr = true ∧ isSpareAddr c c.statAddr = true := by
  unfold Cfg.wf at h
  simp only [Bool.and_eq_true, decide_eq_true_eq] at h
  tauto

theorem wf_filters {c : Cfg} (h : c.wf = true) : ∀ b ∈ filterBases c, b + 4 ≤ 0x1C := by
  unfold Cfg.wf at h
  simp only [Bool.and_eq_true, decide_eq_true_eq, List.all_eq_true] at h
  tauto

/-- Every pattern has zero low five bits (R231). -/
theorem wf_pattern {c : Cfg} (h : c.wf = true) (m : OperatingMode) : modePattern c m &&& 0x1F = 0 := by
  unfold Cfg.wf at h
  simp only [Bool.and_eq_true, decide_eq_true_eq, List.all_eq_true] at h
  have h1 : ∀ p ∈ [c.patNormal, c.patSleep, c.patLoopback, c.patListenOnly, c.patConfig, c.patPowerUp],
      p &&& 0x1F = 0 := by tauto
  cases m <;> exact h1 _ (by simp [modePattern])

theorem spare_lt {c : Cfg} {a : Nat} (h : isSpareAddr c a = true) : a < regCount := by
  simp only [isSpareAddr, Bool.and_eq_true, decide_eq_true_eq] at h
  exact h.1.1

theorem spare_fixed {c : Cfg} {a : Nat} (h : isSpareAddr c a = true) : isFixedNamed a = false := by
  simp only [isSpareAddr, Bool.and_eq_true, Bool.not_eq_true'] at h
  exact h.2

theorem spare_filter {c : Cfg} {a : Nat} (h : isSpareAddr c a = true) : isFilterByte c a = false := by
  simp only [isSpareAddr, Bool.and_eq_true, Bool.not_eq_true'] at h
  exact h.1.2

/-- A spare register is not protected (R62). -/
theorem spare_unprotected {c : Cfg} {a : Nat} (h : isSpareAddr c a = true) : isProtected c a = false := by
  have h1 := spare_fixed h
  simp only [isFixedNamed, Bool.or_eq_false_iff] at h1
  simp [isProtected, spare_filter h, h1.1.1.1.2, h1.1.1.2]

/-! ### The canonical form of memory -/

/-- The record is legal and memory is canonical. -/
def Canonical (s : State) : Prop := s.cfg.wf = true ∧ Memory.wf s.mem = true

theorem canonical_setReg {s : State} {a : Nat} (v : Byte) (h : Canonical s) (ha : a < regCount) :
    Canonical (s.setReg a v) := ⟨h.1, Memory.wf_write v h.2 ha⟩

theorem canonical_enterMode {s : State} (m : OperatingMode) (h : Canonical s) : Canonical (s.enterMode m) :=
  ⟨h.1, Memory.wf_write _ h.2 (spare_lt (wf_spare h.1).2.2)⟩

theorem canonical_putBytes {s : State} {a : Nat} {bs : List Byte} (h : Canonical s) (ha : a + bs.length ≤ regCount) :
    Canonical (putBytes a bs s) := by
  induction bs generalizing a s with
  | nil => exact h
  | cons b bs ih =>
    simp only [List.length_cons] at ha
    exact ih (canonical_setReg b h (by omega)) (by omega)

theorem canonical_envStep {s : State} (e : EnvStep) (h : Canonical s) : Canonical (envStep s e) := by
  have hi : intfAddr < regCount := by decide
  cases e with
  | fillRx n block =>
    simp only [envStep, fillRx]
    split
    · exact h
    · refine canonical_setReg _ (canonical_putBytes h ?_) hi
      have : (block.take blockLen).length ≤ blockLen := by simp
      cases n <;> simp only [rxBase, blockLen, regCount] at this ⊢ <;> omega
  | txDone n v =>
    simp only [envStep, finishTx]
    split
    · refine canonical_setReg _ (canonical_setReg v h ?_) hi
      cases n <;> decide
    · exact h
  | txControl n v => exact canonical_setReg v h (by cases n <;> decide)
  | raiseFlags m => exact canonical_setReg _ h hi
  | errorCounter0 v => exact canonical_setReg v h (by decide)
  | errorCounter1 v => exact canonical_setReg v h (by decide)
  | errorFlags v => exact canonical_setReg v h (by decide)
  | statusBits v => exact canonical_setReg _ h (spare_lt (wf_spare h.1).2.2)

/-- Every effect on the target keeps the canonical form. -/
theorem keptByTarget_canonical : KeptByTarget Canonical where
  env _ e h := canonical_envStep e h
  setEnv _ _ h := h
  setWindow _ _ h := h
  draw _ h := h
  reset _ h := ⟨h.1, rfl⟩
  request _ _ h := h
  store s t a v ha h he := by
    obtain ⟨-, -, rfl⟩ | ⟨-, -, -, rfl | ⟨-, req, -, -, rfl⟩⟩ := storeReg_ok he
    · exact h
    · exact canonical_setReg v h ha
    · exact canonical_enterMode req (canonical_setReg v h ha)
  modify s t a m v ha h he := by
    obtain ⟨-, -, ⟨-, rfl⟩ | ⟨-, rfl⟩⟩ | ⟨-, -, -, rfl | ⟨-, -, req, -, -, rfl⟩⟩ := modifyReg_ok he
    · exact h
    · exact h
    · exact canonical_setReg _ h ha
    · exact canonical_enterMode req (canonical_setReg _ h ha)

/-- A burst of stores inside the register space keeps the canonical form. -/
theorem canonical_memWrite {a : Nat} {d : List Byte} {s t : State} (h : Canonical s) (ha : a + d.length ≤ regCount)
    (he : memWrite a d s = .ok t) : Canonical t := by
  induction d generalizing a s with
  | nil => cases he; exact h
  | cons v d ih =>
    simp only [List.length_cons] at ha
    simp only [memWrite] at he
    split at he
    · cases he
    · rename_i u hu
      exact ih (keptByTarget_canonical.store _ _ _ _ (by omega) h hu) (by omega) he

/-- Reset's memory lists nothing, so it is canonical. -/
theorem canonical_reset : Memory.wf State.reset.mem = true := rfl

/-! ### A burst of plain stores -/

/-- `MemWrite` over a range without the status and the control register and without an unnamed address (R67, R302):
every byte is stored or discarded, and the discarded ones are marked in address order. -/
theorem memWrite_plain {a : Nat} {d : List Byte} {s : State}
    (h : ∀ k, k < d.length → a + k ≠ s.cfg.statAddr ∧ a + k ≠ s.cfg.ctrlAddr ∧ isNamed s.cfg (a + k) = true) :
    ∃ t, memWrite a d s = .ok t ∧ t.mode = s.mode ∧ t.requested = s.requested ∧
      t.marks = s.marks ++ discards s.cfg s.mode a d.length ∧
      ∀ x, t.reg x =
        if a ≤ x ∧ x < a + d.length ∧ ¬ (isProtected s.cfg x = true ∧ s.mode ≠ .config) then d.getD (x - a) 0
        else s.reg x := by
  induction d generalizing a s with
  | nil =>
    refine ⟨s, rfl, rfl, rfl, by simp [discards], fun x => ?_⟩
    rw [if_neg]
    simp only [List.length_nil]
    omega
  | cons v d ih =>
    obtain ⟨h1, h2, h3⟩ := h 0 (by simp)
    rw [Nat.add_zero] at h1 h2 h3
    have hd : discards s.cfg s.mode a (d.length + 1) =
        (if isProtected s.cfg a = true ∧ s.mode ≠ .config then [.protectedWrite a] else []) ++
          discards s.cfg s.mode (a + 1) d.length := by
      simp only [discards, List.range_succ_eq_map, List.filter_cons, Nat.add_zero, Bool.and_eq_true, decide_eq_true_eq]
      have hf : (fun k => isProtected s.cfg (a + (k + 1)) && decide (s.mode ≠ .config)) =
          fun k => isProtected s.cfg (a + 1 + k) && decide (s.mode ≠ .config) :=
        funext fun k => by rw [Nat.add_assoc a 1 k, Nat.add_comm 1 k]
      have hg : (fun k => RunMark.protectedWrite (a + (k + 1))) = fun k => RunMark.protectedWrite (a + 1 + k) :=
        funext fun k => by rw [Nat.add_assoc a 1 k, Nat.add_comm 1 k]
      split <;> simp only [List.filter_map, List.map_map, List.map_cons, Function.comp_def, Nat.succ_eq_add_one, hf, hg,
        List.cons_append, List.nil_append, Nat.add_zero]
    have hrest : ∀ (u : State), u.cfg = s.cfg → ∀ k, k < d.length →
        a + 1 + k ≠ u.cfg.statAddr ∧ a + 1 + k ≠ u.cfg.ctrlAddr ∧ isNamed u.cfg (a + 1 + k) = true := by
      intro u hu k hk
      have := h (k + 1) (by simp; omega)
      rw [hu, show a + 1 + k = a + (k + 1) by omega]
      exact this
    by_cases hp : isProtected s.cfg a = true ∧ s.mode ≠ .config
    · have hs : storeReg a v s = .ok (s.mark (.protectedWrite a)) := by simp [storeReg, hp.1, hp.2]
      obtain ⟨t, ht, hm, hr, hk, hg⟩ := ih (s := s.mark (.protectedWrite a)) (hrest _ rfl)
      have hk' : t.marks = (s.marks ++ [.protectedWrite a]) ++ discards s.cfg s.mode (a + 1) d.length := hk
      have hg' : ∀ x, t.reg x = if a + 1 ≤ x ∧ x < a + 1 + d.length ∧ ¬ (isProtected s.cfg x = true ∧ s.mode ≠ .config)
          then d.getD (x - (a + 1)) 0 else s.reg x := hg
      refine ⟨t, by simp only [memWrite, hs, ht], hm, hr, ?_, fun x => ?_⟩
      · rw [hk', List.length_cons, hd, if_pos hp, List.append_assoc]
      · rw [hg' x, List.length_cons]
        by_cases hx : x = a
        · subst hx
          rw [if_neg (by omega), if_neg (fun hc => hc.2.2 hp)]
        · by_cases hc : a + 1 ≤ x ∧ x < a + 1 + d.length ∧ ¬ (isProtected s.cfg x = true ∧ s.mode ≠ .config)
          · rw [if_pos hc, if_pos ⟨by omega, by omega, hc.2.2⟩, show x - a = x - (a + 1) + 1 by omega]
            rfl
          · rw [if_neg hc, if_neg (fun hd => hc ⟨by omega, by omega, hd.2.2⟩)]
    · have hs : storeReg a v s = .ok (s.setReg a v) := by
        have hpb : (isProtected s.cfg a && decide (s.mode ≠ .config)) = false := by
          simpa only [Bool.and_eq_false_iff, decide_eq_false_iff_not, not_and_or, Bool.not_eq_true] using hp
        unfold storeReg
        rw [hpb]
        simp [h1, h2, h3]
      obtain ⟨t, ht, hm, hr, hk, hg⟩ := ih (s := s.setReg a v) (hrest _ rfl)
      have hg' : ∀ x, t.reg x = if a + 1 ≤ x ∧ x < a + 1 + d.length ∧ ¬ (isProtected s.cfg x = true ∧ s.mode ≠ .config)
          then d.getD (x - (a + 1)) 0 else (s.setReg a v).reg x := hg
      refine ⟨t, by simp only [memWrite, hs, ht], hm, hr, ?_, fun x => ?_⟩
      · rw [hk, List.length_cons, hd, if_neg hp]
        rfl
      · rw [hg' x, List.length_cons, reg_setReg]
        by_cases hx : x = a
        · subst hx
          rw [if_neg (by omega), if_pos rfl, if_pos ⟨by omega, by omega, hp⟩]
          simp
        · by_cases hc : a + 1 ≤ x ∧ x < a + 1 + d.length ∧ ¬ (isProtected s.cfg x = true ∧ s.mode ≠ .config)
          · rw [if_pos hc, if_pos ⟨by omega, by omega, hc.2.2⟩, show x - a = x - (a + 1) + 1 by omega]
            rfl
          · rw [if_neg hc, if_neg hx, if_neg (fun hd => hc ⟨by omega, by omega, hd.2.2⟩)]

end Sys2Proof.Machine
end

