-- ==== Sys2Proof/Laws/PerInstr.lean ====
section
/-! SUPPORT. Statements about every instruction as syntax, one lemma per constructor. The family EncodeShape:
the encoding of a well-formed instruction has the length of its format (R91), begins with its opcode (R97) and, in
the formats with an address, has an address byte whose bit 7 is 0 (R96). -/

namespace Sys2Proof.Laws.EncodeShape

open Sys2Proof

/-- The bytes of each format (R91). -/
def formatLength : Instr → Nat
  | .reset => 1
  | .read _ n => 2 + n
  | .write _ d => 2 + d.length
  | .bitmod _ _ _ => 4
  | .rtsTxb0 => 1
  | .rtsTxb1 => 1
  | .rtsTxb2 => 1
  | .rtsAll => 1

/-- The first byte of each row (R97). -/
def firstByte : Instr → Byte
  | .reset => 0xC0
  | .read _ _ => 0x03
  | .write _ _ => 0x02
  | .bitmod _ _ _ => 0x05
  | .rtsTxb0 => 0x81
  | .rtsTxb1 => 0x82
  | .rtsTxb2 => 0x84
  | .rtsAll => 0x87

def Statement (i : Instr) : Prop :=
  i.wf = true →
    (encode i).length = formatLength i ∧ (encode i).head? = some (firstByte i) ∧
    ((encode i).length > 1 → ∃ a, (encode i)[1]? = some a ∧ a.getLsbD 7 = false)

/-- An address below 128 has bit 7 clear in its byte. -/
theorem address_bit7 {a : Nat} (h : a < 128) : (BitVec.ofNat 8 a).getLsbD 7 = false := by
  simp only [BitVec.getLsbD_ofNat, Nat.testBit_eq_decide_div_mod_eq, Bool.and_eq_false_imp, decide_eq_true_eq,
    decide_eq_false_iff_not]
  omega

theorem reset : Statement .reset := fun _ => ⟨rfl, rfl, fun h => absurd h (by decide)⟩

theorem read (start count : Nat) : Statement (.read start count) := by
  intro h
  simp only [Instr.wf, Bool.and_eq_true, decide_eq_true_eq] at h
  exact ⟨by simp [encode, formatLength]; omega, rfl, fun _ => ⟨_, rfl, address_bit7 h.1.1⟩⟩

theorem write (start : Nat) (data : List Byte) : Statement (.write start data) := by
  intro h
  simp only [Instr.wf, Bool.and_eq_true, decide_eq_true_eq] at h
  exact ⟨by simp [encode, formatLength]; omega, rfl, fun _ => ⟨_, rfl, address_bit7 h.1.1⟩⟩

theorem bitmod (address : Nat) (mask value : Byte) : Statement (.bitmod address mask value) := by
  intro h
  simp only [Instr.wf, decide_eq_true_eq] at h
  exact ⟨rfl, rfl, fun _ => ⟨_, rfl, address_bit7 h⟩⟩

theorem rtsTxb0 : Statement .rtsTxb0 := fun _ => ⟨rfl, rfl, fun h => absurd h (by decide)⟩
theorem rtsTxb1 : Statement .rtsTxb1 := fun _ => ⟨rfl, rfl, fun h => absurd h (by decide)⟩
theorem rtsTxb2 : Statement .rtsTxb2 := fun _ => ⟨rfl, rfl, fun h => absurd h (by decide)⟩
theorem rtsAll : Statement .rtsAll := fun _ => ⟨rfl, rfl, fun h => absurd h (by decide)⟩

end Sys2Proof.Laws.EncodeShape
end

