-- ==== Sys2Proof/Tests/Slice0.lean ====
section
/-! SUPPORT. The model's own tests, each one step or one pure function on small data, with expected results from
spec/95_test_vectors.md or from the rule named; and for every statement with hypotheses a witness that meets them. -/

namespace Sys2Proof.Tests

open Sys2Proof Sys2Proof.Machine Sys2Proof.Safety

/-! ### Helpers -/

/-- The next state, if there is one. -/
def after (o : Host.Outcome State Fault Refusal) : Option State :=
  match o with
  | .next t => some t
  | .fault _ => none
  | .refused _ => none

/-- The refusal, if it is one. -/
def refusal (o : Host.Outcome State Fault Refusal) : Option Refusal :=
  match o with
  | .next _ => none
  | .fault _ => none
  | .refused r => some r

/-- A constructed block over a target with these registers in this mode. -/
def small (mode : OperatingMode) (mem : Memory) : State :=
  { State.reset with constructed := true, mode := mode, mem := mem }

/-- The same with one command to come. -/
def presenting (c : Command) (mem : Memory) : State := { small .normal mem with host := [.command c] }

/-- A register after one instruction. -/
def regAfter (i : Instr) (s : State) (a : Nat) : Option Byte := (after (exec i s)).map fun t => t.reg a

/-! ### Well-formedness refuses -/

theorem test_wf_instr_refuses :
    [Instr.read 0x80 1, .read 0x10 0, .read 0x7F 2, .write 0x80 [0], .write 0x30 [], .write 0x78 (zeros 9),
     .bitmod 0x80 1 1].all (fun i => !i.wf) = true := by decide

theorem test_wf_instr_accepts :
    [Instr.read 0x7F 1, .read 0x00 128, .write 0x7F [0], .write 0x78 (zeros 8), .bitmod 0x7F 0 0, .reset, .rtsTxb0,
     .rtsTxb1, .rtsTxb2, .rtsAll].all Instr.wf = true := by decide

theorem test_wf_timing_refuses :
    [TimingParameters.mk 0 2 3 2 1, ⟨9, 2, 3, 2, 1⟩, ⟨1, 0, 3, 2, 1⟩, ⟨1, 9, 3, 2, 1⟩, ⟨1, 2, 0, 2, 1⟩, ⟨1, 2, 9, 2, 1⟩,
     ⟨1, 2, 3, 0, 1⟩, ⟨1, 2, 3, 9, 1⟩, ⟨1, 2, 3, 2, 0⟩, ⟨1, 2, 3, 2, 5⟩].all (fun t => !t.wf) = true := by decide

theorem test_wf_frame_refuses :
    [CanFrame.mk 0x20000000 [], ⟨0x00000800, []⟩, ⟨0x00000123, zeros 9⟩].all (fun f => !f.wf) = true := by decide

theorem test_default_cfg_wf : defaultCfg.wf = true := by decide

/-- One record for each constraint of `Cfg.wf`, in its order. -/
theorem test_wf_cfg_refuses :
    [{ defaultCfg with ctrlAddr := 0x0E },
     { defaultCfg with ctrlAddr := 0x2C },
     { defaultCfg with statAddr := 0x04 },
     { defaultCfg with filter5 := 0x19 },
     { defaultCfg with filter1 := 0x03 },
     { defaultCfg with patSleep := 0x00 },
     { defaultCfg with patSleep := 0x21 },
     { defaultCfg with icodMask := 0x8E },
     { defaultCfg with rx0if := 0x03 },
     { defaultCfg with rx1if := 0x01 },
     { defaultCfg with rtrByte := 1 },
     { defaultCfg with timingTable := [] },
     { defaultCfg with timingTable := ⟨8000000, 500000, ⟨1, 1, 1, 1, 1⟩⟩ :: defaultCfg.timingTable },
     { defaultCfg with timingTable := defaultCfg.timingTable ++ [⟨10000000, 500000, ⟨1, 1, 1, 1, 5⟩⟩] },
     { defaultCfg with denied := [(.normal, .config)] }].all (fun c => !c.wf) = true := by decide

/-! ### Decoding: words written out from R92 to R98 and 95_test_vectors.md section 2 -/

theorem test_decode_reset : decode [0b11000000] = .ok .reset := by rfl
theorem test_decode_read :
    decode [0b00000011, 0b01100000, 0, 0, 0, 0, 0, 0] = .ok (.read 0x60 6) := by rfl
theorem test_decode_read_filler : decode [0x03, 0x2C, 0x55] = .ok (.read 0x2C 1) := by rfl
theorem test_decode_write :
    decode [0b00000010, 0b00110110, 0x11, 0x22, 0x33] = .ok (.write 0x36 [0x11, 0x22, 0x33]) := by rfl
theorem test_decode_bitmod :
    decode [0b00000101, 0b00001111, 0b11100000, 0b10000000] = .ok (.bitmod 0x0F 0xE0 0x80) := by rfl
theorem test_decode_rts0 : decode [0b10000001] = .ok .rtsTxb0 := by rfl
theorem test_decode_rts1 : decode [0b10000010] = .ok .rtsTxb1 := by rfl
theorem test_decode_rts2 : decode [0b10000100] = .ok .rtsTxb2 := by rfl
theorem test_decode_rts_all : decode [0b10000111] = .ok .rtsAll := by rfl

/-- Section 2.3: malformed shapes and reserved first bytes, each under its name. -/
theorem test_decode_malformed :
    decode [] = .error .empty ∧ decode [0xC0, 0x00] = .error .trailingBytes ∧ decode [0x03, 0x2C] = .error .noData ∧
    decode [0x05, 0x2C, 0x01] = .error .bitmodLength ∧ decode [0x05, 0x2C, 0x01, 0, 0] = .error .bitmodLength ∧
    decode [0x02, 0x80, 0x00] = .error .addressBit7 ∧ decode [0x02, 0x7F, 0, 0] = .error .pastEnd ∧
    decode [0x83] = .error (.reservedOpcode 0x83) ∧ decode [0x80] = .error (.reservedOpcode 0x80) ∧
    decode [0xA0] = .error (.reservedOpcode 0xA0) := by
  refine ⟨?_, ?_, ?_, ?_, ?_, ?_, ?_, ?_, ?_, ?_⟩ <;> rfl

theorem test_encode_words :
    encode (.read 0x60 6) = [0x03, 0x60, 0, 0, 0, 0, 0, 0] ∧ encode (.write 0x2B [0xA3]) = [0x02, 0x2B, 0xA3] ∧
    encode (.bitmod 0x2C 0x01 0x00) = [0x05, 0x2C, 0x01, 0x00] := by decide

/-- The rows of the opcode table are placed and run as the first instruction after reset. -/
theorem test_table_words_run :
    [0xC0, 0x03, 0x02, 0x05, 0x81, 0x82, 0x84, 0x87].all
      (fun w => (decodeTableWord 8 w).isSome && (after (step (State.reset.withFetchWord 8 w))).isSome) = true := by decide

/-! ### The codec (sections 3 and 4) -/

theorem test_decode_header_extended :
    decodeHeader defaultCfg ⟨0x00, 0xA8, 0x08, 0x12, 0x34, 0x02⟩ = .ok (0x95001234, 2) := by rfl
theorem test_decode_header_standard :
    decodeHeader defaultCfg ⟨0xBF, 0x24, 0x60, 0x55, 0xAA, 0x48⟩ = .ok (0x00000123, 8) := by rfl
theorem test_decode_header_all_ones :
    decodeHeader defaultCfg ⟨0xFF, 0xFF, 0xFF, 0xFF, 0xFF, 0xF8⟩ = .ok (0xDFFFFFFF, 8) := by rfl
theorem test_decode_header_bad_dlc :
    decodeHeader defaultCfg ⟨0x00, 0x24, 0x60, 0x00, 0x00, 0xF9⟩ = .error (.dlcRange 9) := by rfl
theorem test_encode_frame_standard :
    encodeFrame defaultCfg ⟨0x00000123, [0x11, 0x22, 0x33]⟩ =
      some (⟨0x00, 0x24, 0x60, 0x00, 0x00, 0x03⟩, [0x11, 0x22, 0x33]) := by decide
theorem test_encode_frame_extended_remote :
    encodeFrame defaultCfg ⟨0xDFFFFFFF, [0x01]⟩ = some (⟨0x40, 0xFF, 0xEB, 0xFF, 0xFF, 0x01⟩, [0x01]) := by decide

/-! ### Timing and modes (sections 5 and 6) -/

theorem test_resolve :
    resolve defaultCfg.timingTable 8000000 500000 = some ⟨1, 2, 3, 2, 1⟩ ∧
    resolve defaultCfg.timingTable 500000 8000000 = none ∧ resolve defaultCfg.timingTable 12345678 500000 = none := by decide
theorem test_pack_cnf :
    packCNF ⟨1, 2, 3, 2, 1⟩ = some ⟨0x41, 0x91, 0x00⟩ ∧ packCNF ⟨8, 8, 8, 8, 4⟩ = some ⟨0x47, 0xBF, 0xC7⟩ ∧
    packCNF ⟨4, 3, 8, 4, 3⟩ = some ⟨0x43, 0xBA, 0x83⟩ ∧ packCNF ⟨1, 2, 3, 2, 5⟩ = none := by decide
theorem test_status_byte :
    statusMode defaultCfg 0x8C = some .config ∧ causeCode defaultCfg 0x8C = 6 ∧ statusMode defaultCfg 0xFF = some .powerUp ∧
    statusMode defaultCfg 0xBF = none ∧ statusMode defaultCfg 0xC0 = none := by decide

/-! ### One instruction (section 2.2, R132 to R145) -/

theorem test_read_returns_registers :
    (after (exec (.read 0x60 2) (small .normal [(0x60, 0x12), (0x61, 0x34)]))).map State.response =
      some [0x12, 0x34] := by decide

theorem test_read_status_of_failure :
    (after (exec (.read 0x60 1) { small .normal [(0x60, 0x12)] with spi := [.fail 3] })).map
      (fun t => (t.response, t.needsReinit, t.outcomes)) =
      some ([], true, [.error (.transportFailure (.read 0x60 1))]) := by decide

theorem test_write_plain : regAfter (.write 0x36 [0x11, 0x22, 0x33]) (small .sleep []) 0x38 = some 0x33 := by decide

/-- P7: after `k` = 3 of 4 bytes only the first data byte is written. -/
theorem test_write_cut_short :
    (after (exec (.write 0x36 [0x11, 0x22]) { small .normal [(0x37, 0x77)] with spi := [.fail 3] })).map
      (fun t => (t.reg 0x36, t.reg 0x37)) = some (0x11, 0x77) := by decide

theorem test_write_protected_discarded :
    (after (exec (.write 0x28 [0x41]) (small .normal [(0x28, 0x07)]))).map (fun t => (t.reg 0x28, t.marks)) =
      some (0x07, [.protectedWrite 0x28]) := by decide

theorem test_write_unnamed_refused :
    refusal (exec (.write 0x7D [0, 0]) (small .normal [])) = some (.unnamedWrite 0x7E) := by decide

/-- Section 2.2: the worked rows, old, mask, value, new. -/
theorem test_bit_modify :
    [((0xFF : Byte), (0xE0 : Byte), (0x80 : Byte), (0x9F : Byte)), (0x87, 0xE0, 0x00, 0x07), (0xE7, 0xE0, 0x80, 0x87),
     (0x5A, 0x00, 0xFF, 0x5A), (0x5A, 0xFF, 0xC3, 0xC3), (0x00, 0x01, 0xFF, 0x01), (0x23, 0x01, 0x00, 0x22),
     (0x02, 0x01, 0x00, 0x02)].all (fun r => bitModify r.1 r.2.1 r.2.2.1 == r.2.2.2) = true := by decide

theorem test_bitmod_clears_one_flag : regAfter (.bitmod 0x2C 0x01 0x00) (small .normal [(0x2C, 0x23)]) 0x2C = some 0x22 := by
  decide

theorem test_bitmod_requests_mode :
    (after (exec (.bitmod 0x0F 0xE0 0x80) (small .normal [(0x0E, 0x0C), (0x0F, 0x07)]))).map
      (fun t => (t.reg 0x0F, t.reg 0x0E, t.mode)) = some (0x87, 0x8C, .config) := by decide

theorem test_reset_enters_power_up :
    (after (exec .reset (small .normal [(0x30, 0x55)]))).map (fun t => (t.mode, t.mem)) = some (.powerUp, []) := by decide

theorem test_rts_marks :
    [Instr.rtsTxb0, .rtsTxb1, .rtsTxb2, .rtsAll].map (fun i => (after (exec i (small .normal []))).map State.requested) =
      [some ⟨true, false, false⟩, some ⟨false, true, false⟩, some ⟨false, false, true⟩, some ⟨true, true, true⟩] := by decide

/-- P4: ENV sets the other flag before the fourth byte, and the clear of the one flag keeps it. -/
theorem test_bitmod_keeps_env_flag :
    regAfter (.bitmod 0x2C 0x01 0x00)
      { small .normal [(0x2C, 0x01)] with env := [[], [], [.fillRx .rxb1 (zeros 14)], []] } 0x2C = some 0x02 := by decide

/-- R39: a full buffer is left alone. -/
theorem test_env_leaves_full_buffer :
    (envStep (small .normal [(0x2C, 0x01), (0x60, 0x12)]) (.fillRx .rxb0 (zeros 14))).reg 0x60 = 0x12 := by decide

theorem test_poll_reads_flags :
    (after (step (presenting .poll []))).map State.job = some (some ⟨[.read 0x2C 1], .pollFlags⟩) := by decide

/-! ### Witnesses: states and operands that meet the hypotheses of the statements, in the statements' order -/

theorem witness_quiet (m : OperatingMode) (mem : Memory) : Quiet (small m mem) := ⟨rfl, rfl⟩
theorem witness_small_wf (m : OperatingMode) (mem : Memory) : (small m mem).cfg.wf = true := by
  show defaultCfg.wf = true
  exact test_default_cfg_wf
theorem witness_presents (c : Command) (mem : Memory) :
    Presents c [] (presenting c mem) ∧ Quiet (presenting c mem) ∧ (presenting c mem).constructed = true :=
  ⟨⟨⟨rfl, rfl⟩, rfl⟩, ⟨rfl, rfl⟩, rfl⟩
theorem witness_presents_wf (c : Command) (mem : Memory) : (presenting c mem).cfg.wf = true := by
  show defaultCfg.wf = true
  exact test_default_cfg_wf

theorem witness_BlockPowerUpState :
    Idle { State.reset with host := [.blockPowerUp] } ∧ ({ State.reset with host := [.blockPowerUp] } : State).host = .blockPowerUp :: [] :=
  ⟨⟨rfl, rfl⟩, rfl⟩
theorem witness_TargetPowerUpState :
    Idle { State.reset with host := [.targetPowerUp] } ∧ State.reset.cfg.wf = true ∧
    ({ State.reset with host := [.targetPowerUp] } : State).host = .targetPowerUp :: [] :=
  ⟨⟨rfl, rfl⟩, test_default_cfg_wf, rfl⟩

/-- Every format at the edge of its operands. -/
theorem witness_DecodeInvertsEncode :
    [Instr.read 0x7F 1, .read 0x00 128, .write 0x7F [0], .bitmod 0x7F 0 0, .reset].all Instr.wf = true := by decide
theorem witness_EncodeInvertsDecode :
    decode [0x03, 0x7F, 0x55] = .ok (.read 0x7F 1) ∧ decode [0x02, 0x7F, 0x55] = .ok (.write 0x7F [0x55]) := ⟨rfl, rfl⟩
theorem witness_DecodeAcceptsExactlyShapes : (Instr.read 0x7F 1).wf = true ∧ (Instr.read 0x7F 2).wf = false := by decide
theorem witness_InvalidTransactionRefused :
    ({ State.reset with wire := some [0xC0, 0x00] } : State).wire = some [0xC0, 0x00] ∧
    decode [0xC0, 0x00] = .error .trailingBytes ∧
    (0x83 : Byte) ∉ ([0xC0, 0x03, 0x02, 0x05, 0x81, 0x82, 0x84, 0x87] : List Byte) := ⟨rfl, rfl, by decide⟩
theorem witness_TableWordRuns : decodeTableWord 8 0x02 = some (.write 0 [0x00]) := by rfl
theorem witness_StepRunsDecoded :
    ({ State.reset with wire := some [0x81] } : State).wire = some [0x81] ∧ decode [0x81] = .ok .rtsTxb0 := ⟨rfl, rfl⟩
theorem witness_BlockOffersInstruction :
    ({ State.reset with job := some ⟨[.reset], .unit⟩ } : State).wire = none ∧
    ({ State.reset with job := some ⟨[.reset], .unit⟩ } : State).job = some ⟨.reset :: [], .unit⟩ := ⟨rfl, rfl⟩

theorem witness_HostGate :
    Presents .poll [] { State.reset with host := [.command .poll] } ∧ State.reset.constructed = false ∧
    (∀ osc br, Command.poll ≠ .construct osc br) ∧ (∀ osc br, Command.poll ≠ .resolve osc br) ∧
    (∀ tp, Command.poll ≠ .packCNF tp) ∧ (∀ h, Command.poll ≠ .decodeHeader h) ∧ (∀ f, Command.poll ≠ .encodeFrame f) := by
  refine ⟨⟨⟨rfl, rfl⟩, rfl⟩, rfl, ?_, ?_, ?_, ?_, ?_⟩ <;> intros <;> intro h <;> cases h

/-- The operands of every clause of `HostRefusals` at a boundary; `witness_presents` gives the rest. -/
theorem witness_HostRefusals :
    (0x80 > 0x7F) ∧ ¬ (0x7F > 0x7F) ∧ (0x7F + 2 > 0x80) ∧ (zeros 0 = []) ∧ (0x78 + (zeros 9).length > 0x80) ∧ (3 > 2) ∧ (2 > 1) ∧
    (CanFrame.mk 0x20000000 []).wf = false ∧ (TimingParameters.mk 1 2 3 2 5).wf = false := by decide

theorem witness_PureFunctionsAnswer (c : Command) :
    Presents c [] (presenting c []) ∧ (presenting c []).cs = .released ∧ (presenting c []).window = none ∧
    (TimingParameters.mk 1 2 3 2 1).wf = true ∧
    encodeFrame (presenting c []).cfg ⟨0x123, []⟩ = some (⟨0x00, 0x24, 0x60, 0x00, 0x00, 0x00⟩, []) := by
  refine ⟨(witness_presents c []).1, rfl, rfl, by decide, ?_⟩
  show encodeFrame defaultCfg ⟨0x123, []⟩ = _
  decide
theorem witness_RawCommandIssuesOne :
    Presents (.readRegisters 0x7D 1) [] (presenting (.readRegisters 0x7D 1) []) ∧ (Instr.read 0x7D 1).wf = true ∧
    (Instr.write 0x7F [0]).wf = true ∧ (Instr.bitmod 0x7F 0 0).wf = true ∧
    ∃ t, exec (.read 0x7D 1) { presenting (.readRegisters 0x7D 1) [] with host := [], wire := none, job := some ⟨[], .bytes⟩ } =
      .next t ∧ t.job ≠ none :=
  ⟨(witness_presents _ _).1, rfl, rfl, rfl, _, rfl, fun h => (by cases h)⟩

theorem witness_ReadReturnsRegisters :
    Quiet (small .normal []) ∧ 0x7D < 128 ∧ 1 ≤ 3 ∧ 0x7D + 3 ≤ 128 ∧
    isNamed (small .normal []).cfg (0x7D + 0) = true ∧ isNamed (small .normal []).cfg (0x7D + 2) = false :=
  ⟨⟨rfl, rfl⟩, by decide⟩

/-- A range that crosses from an unprotected register into protected ones, outside Config. -/
theorem witness_WriteStoresBytes :
    Quiet (small .normal []) ∧ 0x26 < 128 ∧ 1 ≤ (zeros 6).length ∧ 0x26 + (zeros 6).length ≤ 128 ∧
    ∀ k, k < (zeros 6).length → 0x26 + k ≠ (small .normal []).cfg.statAddr ∧ 0x26 + k ≠ (small .normal []).cfg.ctrlAddr ∧
      isNamed (small .normal []).cfg (0x26 + k) = true := by
  refine ⟨⟨rfl, rfl⟩, by decide, by decide, by decide, ?_⟩
  decide

theorem witness_WriteControlRegister :
    Quiet (small .normal []) ∧ (0x9F : Byte) &&& 0xE0 = modePattern (small .normal []).cfg .config ∧
    ∀ req, (0xBF : Byte) &&& 0xE0 ≠ modePattern (small .normal []).cfg req := by
  refine ⟨⟨rfl, rfl⟩, by decide, ?_⟩
  intro req; cases req <;> decide
/-- A protected register outside Config, and the control register with a mask below the mode field. -/
theorem witness_BitmodModifiesRegister :
    Quiet (small .normal []) ∧ 0x28 < 128 ∧ 0x28 ≠ (small .normal []).cfg.statAddr ∧ isNamed (small .normal []).cfg 0x28 = true ∧
    isProtected (small .normal []).cfg 0x28 = true ∧ isNamed (small .normal []).cfg 0x0F = true ∧
    ((0x0F : Nat) = (small .normal []).cfg.ctrlAddr → (0x1F : Byte) &&& 0xE0 = 0) := ⟨⟨rfl, rfl⟩, by decide⟩
theorem witness_BitmodModeRequest :
    Quiet (small .normal [(0x0F, 0x07)]) ∧ (0x80 : Byte) &&& 0xE0 ≠ 0 ∧
    ((small .normal [(0x0F, 0x07)]).reg 0x0F &&& ~~~(0x80 : Byte) ||| ((0xFF : Byte) &&& 0x80)) &&& 0xE0 =
      modePattern (small .normal []).cfg .config ∧
    ∀ req, ((small .normal [(0x0F, 0x07)]).reg 0x0F &&& ~~~(0xE0 : Byte) ||| ((0xA0 : Byte) &&& 0xE0)) &&& 0xE0 ≠
      modePattern (small .normal []).cfg req := by
  refine ⟨⟨rfl, rfl⟩, by decide, by decide, ?_⟩
  intro req; cases req <;> decide
theorem witness_UnspecifiedWritesRefused :
    (Instr.write 0x0D (zeros 2)).wf = true ∧ 0 < (zeros 2).length ∧ 0x0D + 1 = (small .normal []).cfg.statAddr ∧
    isNamed (small .normal []).cfg 0x0D = false ∧ 0x0D < 128 := by decide
theorem witness_IllFormedRefused : (0x80 : Nat) > 0x7F ∧ (0x7F : Nat) ≤ 0x7F ∧ (0x7F : Nat) + 2 > 0x80 := by decide
theorem witness_ResetRestoresImage : Quiet (small .normal []) ∧ (small .normal []).cfg.wf = true :=
  ⟨witness_quiet _ _, witness_small_wf _ _⟩
theorem witness_RtsMarksRequests : Quiet { small .normal [] with requested := ⟨true, false, true⟩ } := ⟨rfl, rfl⟩
theorem witness_WireMatchesWhole :
    Quiet (small .config []) ∧ (Instr.write 0x28 [0x41]).wf = true ∧
    wholeEffect (.write 0x28 [0x41]) (small .config []) = .ok ((small .config []).setReg 0x28 0x41) ∧
    wholeEffect (.write 0x0E [0x41]) (small .config []) = .error .statusWrite := ⟨⟨rfl, rfl⟩, rfl, rfl, rfl⟩
theorem witness_BitmodUnderEnv :
    ({ small .normal [] with env := [[.raiseFlags 0xFF]] } : State).spi = [] ∧ 0x2C < 128 ∧
    Writable { small .normal [] with env := [[.raiseFlags 0xFF]] } 0x2C ∧
    ((0x2C : Nat) = (small .normal []).cfg.ctrlAddr → (0x01 : Byte) &&& 0xE0 = 0) :=
  ⟨rfl, by decide, ⟨by decide, by decide, by decide⟩, by decide⟩

/-- None of the bytes, some of them, all of them. -/
theorem witness_FailedExchangeAppliesPrefix :
    ∀ k ∈ [0, 3, 4], ({ small .normal [] with spi := [.fail k] } : State).env = [] ∧
      ({ small .normal [] with spi := [.fail k] } : State).spi = .fail k :: [] ∧
      (Instr.bitmod 0x2C 0x01 0x00).wf = true ∧
      ∃ u, prefixEffect (.bitmod 0x2C 0x01 0x00) k (({ small .normal [] with spi := [.fail k] } : State).setSpi []) = .ok u := by
  intro k hk
  simp only [List.mem_cons, List.not_mem_nil, or_false] at hk
  rcases hk with rfl | rfl | rfl <;> exact ⟨rfl, rfl, rfl, _, rfl⟩
theorem witness_WrongLengthIsFailure :
    ({ small .normal [] with spi := [.returns 2] } : State).spi = .returns 2 :: [] ∧
    2 ≠ (encode (.write 0x36 [0x11])).length ∧
    wholeEffect (.write 0x36 [0x11]) (({ small .normal [] with spi := [.returns 2] } : State).setSpi []) =
      .ok ((({ small .normal [] with spi := [.returns 2] } : State).setSpi []).setReg 0x36 0x11) := ⟨rfl, by decide, rfl⟩
theorem witness_ExecReleasesChipSelect : ∃ t, exec .rtsAll (small .normal []) = .next t := ⟨_, rfl⟩

/-- Two registers of which the second is the control register, asked for the mode the target is in. -/
theorem witness_WriteThenRead :
    let s := { small .normal [] with cfg := { defaultCfg with ctrlAddr := 0x2E } }
    Quiet s ∧ s.cfg.wf = true ∧ 0x2D < 128 ∧ 1 ≤ ([0x55, 0x1F] : List Byte).length ∧
    0x2D + ([0x55, 0x1F] : List Byte).length ≤ 128 ∧
    ∀ k, k < ([0x55, 0x1F] : List Byte).length → Writable s (0x2D + k) ∧
      (0x2D + k = s.cfg.ctrlAddr → ∃ req, ([0x55, 0x1F] : List Byte).getD k 0 &&& 0xE0 = modePattern s.cfg req ∧
        (modeGrant s.cfg s.mode req = true → req ≠ s.mode →
          ∀ j, k < j → j < ([0x55, 0x1F] : List Byte).length → isProtected s.cfg (0x2D + j) = false)) := by
  refine ⟨⟨rfl, rfl⟩, by decide, by decide, by decide, by decide, ?_⟩
  intro k hk
  match k, hk with
  | 0, _ => exact ⟨⟨by decide, by decide, by decide⟩, fun h => absurd h (by decide)⟩
  | 1, _ => exact ⟨⟨by decide, by decide, by decide⟩, fun _ => ⟨.normal, by decide, fun _ h => absurd rfl h⟩⟩
/-- The control register, last of two, asked to leave Config for Normal, which is granted. -/
theorem witness_WriteThenRead_modeChange :
    let s := { small .config [] with cfg := { defaultCfg with ctrlAddr := 0x1E } }
    let d : List Byte := [0x55, 0x1F]
    Quiet s ∧ s.cfg.wf = true ∧ 0x1D < 128 ∧ 1 ≤ d.length ∧ 0x1D + d.length ≤ 128 ∧ modeGrant s.cfg s.mode .normal = true ∧
    ∀ k, k < d.length → Writable s (0x1D + k) ∧
      (0x1D + k = s.cfg.ctrlAddr → ∃ req, d.getD k 0 &&& 0xE0 = modePattern s.cfg req ∧
        (modeGrant s.cfg s.mode req = true → req ≠ s.mode →
          ∀ j, k < j → j < d.length → isProtected s.cfg (0x1D + j) = false)) := by
  refine ⟨⟨rfl, rfl⟩, by decide, by decide, by decide, by decide, by decide, ?_⟩
  intro k hk
  match k, hk with
  | 0, _ => exact ⟨⟨by decide, by decide, by decide⟩, fun h => absurd h (by decide)⟩
  | 1, _ => exact ⟨⟨by decide, by decide, by decide⟩,
      fun _ => ⟨.normal, by decide, fun _ _ j h1 h2 => by simp at h2; omega⟩⟩
theorem witness_WriteSplits :
    Quiet (small .normal []) ∧ (Instr.write 0x7C ([0x11] ++ [0x22])).wf = true ∧ ([0x11] : List Byte) ≠ [] ∧
    ∃ t, exec (.write 0x7C ([0x11] ++ [0x22])) (small .normal []) = .next t := ⟨⟨rfl, rfl⟩, rfl, by decide, _, rfl⟩
theorem witness_ReadSplits :
    Quiet (small .normal []) ∧ 0x70 + 6 + 8 ≤ 128 ∧ ∀ k, k < 6 + 8 → isNamed (small .normal []).cfg (0x70 + k) = true :=
  ⟨⟨rfl, rfl⟩, by decide, by decide⟩
theorem witness_BitmodFullMaskIsWrite : Quiet (small .normal []) ∧ 0x7F < 128 := ⟨⟨rfl, rfl⟩, by decide⟩
theorem witness_BitmodThenRead :
    Quiet (small .normal [(0x0F, 0x07)]) ∧ 0x0F < 128 ∧ Writable (small .normal [(0x0F, 0x07)]) 0x0F ∧
    ∃ req, (((small .normal [(0x0F, 0x07)]).reg 0x0F &&& ~~~(0xE0 : Byte)) ||| ((0x80 : Byte) &&& 0xE0)) &&& 0xE0 =
      modePattern (small .normal []).cfg req :=
  ⟨⟨rfl, rfl⟩, by decide, ⟨by decide, by decide, by decide⟩, .config, by decide⟩

theorem witness_CodecRoundTrips :
    (defaultCfg.rtrByte = 0 ∨ defaultCfg.rtrByte = 5) ∧
    (({ defaultCfg with rtrByte := 5 } : Cfg).rtrByte = 0 ∨ ({ defaultCfg with rtrByte := 5 } : Cfg).rtrByte = 5) ∧
    (CanFrame.mk 0x9FFFFFFF (zeros 8)).wf = true ∧ ((0xF8 : Byte) &&& 0x0F).toNat ≤ 8 ∧ ((0xF9 : Byte) &&& 0x0F).toNat > 8 := by
  decide
theorem witness_HeaderDecodesBitByBit :
    (defaultCfg.rtrByte = 0 ∨ defaultCfg.rtrByte = 5) ∧ ((0x08 : Byte) &&& 0x0F).toNat ≤ 8 ∧ ((0x09 : Byte) &&& 0x0F).toNat > 8 ∧
    (zeros 8).length ≤ 8 := by decide
theorem witness_ResolveFirstMatch : defaultCfg.wf = true := test_default_cfg_wf
theorem witness_PackedBytesBitByBit :
    (TimingParameters.mk 8 8 8 8 4).wf = true ∧ (TimingParameters.mk 8 8 8 8 5).wf = false := by decide

theorem witness_ConstructBringsUp :
    let s := { State.reset with host := [.command (.construct 8000000 500000)] }
    Presents (.construct 8000000 500000) [] s ∧ Quiet s ∧ s.cfg.wf = true ∧
    resolve s.cfg.timingTable 8000000 500000 = some ⟨1, 2, 3, 2, 1⟩ ∧ modeGrant s.cfg .config .normal = true :=
  ⟨⟨⟨rfl, rfl⟩, rfl⟩, ⟨rfl, rfl⟩, test_default_cfg_wf, by decide, by decide⟩
theorem witness_ReinitBringsUp :
    let s := { presenting .reinit [] with tp := some ⟨1, 2, 3, 2, 1⟩ }
    Presents .reinit [] s ∧ Quiet s ∧ s.cfg.wf = true ∧ s.constructed = true ∧ s.tp = some ⟨1, 2, 3, 2, 1⟩ ∧
    (TimingParameters.mk 1 2 3 2 1).wf = true ∧ modeGrant s.cfg .config .normal = true :=
  ⟨⟨⟨rfl, rfl⟩, rfl⟩, ⟨rfl, rfl⟩, test_default_cfg_wf, rfl, rfl, by decide, by decide⟩
theorem witness_UnsupportedTimingChangesNothing :
    Presents (.construct 10000000 123456) [] (presenting (.construct 10000000 123456) []) ∧
    ∀ r ∈ (presenting (.construct 10000000 123456) []).cfg.timingTable, ¬ (r.osc = 10000000 ∧ r.bitrate = 123456) :=
  ⟨(witness_presents _ _).1, by decide⟩
theorem witness_SetModeThenStatus :
    let s := { presenting (.setMode .sleep) [] with host := [.command (.setMode .sleep), .command .status] }
    Presents (.setMode .sleep) (.command .status :: []) s ∧ Quiet s ∧ s.cfg.wf = true ∧ s.constructed = true ∧
    modeGrant s.cfg s.mode .sleep = true := ⟨⟨⟨rfl, rfl⟩, rfl⟩, ⟨rfl, rfl⟩, test_default_cfg_wf, rfl, by decide⟩
/-- A byte of each kind: one of a mode, one of none. -/
theorem witness_StatusSplitsByte :
    Presents .status [] (presenting .status [(0x0E, 0x8C)]) ∧
    (presenting .status [(0x0E, 0x8C)]).reg 0x0E &&& 0xE0 = modePattern defaultCfg .config ∧
    ∀ m, (presenting .status [(0x0E, 0xBF)]).reg 0x0E &&& 0xE0 ≠ modePattern defaultCfg m := by
  refine ⟨(witness_presents _ _).1, by decide, ?_⟩
  intro m; cases m <;> decide

theorem witness_PollWithoutFlag :
    Presents .poll [] (presenting .poll [(0x2C, 0xFC)]) ∧ (presenting .poll [(0x2C, 0xFC)]).reg 0x2C &&& defaultCfg.rx0if = 0 ∧
    (presenting .poll [(0x2C, 0xFC)]).reg 0x2C &&& defaultCfg.rx1if = 0 := ⟨(witness_presents _ _).1, by decide, by decide⟩

/-- Buffer 0 with both flags set and two data bytes; buffer 1 alone with none. -/
def polled0 : State :=
  presenting .poll [(0x2C, 0x03), (0x60, 0x00), (0x61, 0xA8), (0x62, 0x08), (0x63, 0x12), (0x64, 0x34), (0x65, 0x02)]
def polled1 : State :=
  presenting .poll [(0x2C, 0x02), (0x70, 0x00), (0x71, 0x24), (0x72, 0x60), (0x73, 0x00), (0x74, 0x00), (0x75, 0x00)]
theorem witness_PollServesBuffer :
    (Presents .poll [] polled0 ∧ Quiet polled0 ∧ polled0.constructed = true) ∧ Presents .poll [] polled1 ∧
    (polled0.reg 0x2C &&& polled0.cfg.rx0if ≠ 0 ∧ decodeHeader polled0.cfg (headerAt polled0 0x60) = .ok (0x95001234, 2)) ∧
    (polled1.reg 0x2C &&& polled1.cfg.rx0if = 0 ∧ polled1.reg 0x2C &&& polled1.cfg.rx1if ≠ 0 ∧
      decodeHeader polled1.cfg (headerAt polled1 0x70) = .ok (0x00000123, 0)) :=
  ⟨⟨⟨⟨rfl, rfl⟩, rfl⟩, ⟨rfl, rfl⟩, rfl⟩, ⟨⟨rfl, rfl⟩, rfl⟩, ⟨by decide, rfl⟩, ⟨by decide, by decide, rfl⟩⟩
theorem witness_PollBadDlcKeepsFlag :
    ((presenting .poll [(0x2C, 0x01), (0x65, 0x09)]).reg 0x2C &&& defaultCfg.rx0if ≠ 0 ∧
      ((presenting .poll [(0x2C, 0x01), (0x65, 0x09)]).reg (0x60 + 5) &&& 0x0F).toNat > 8) ∧
    ((presenting .poll [(0x2C, 0x02), (0x75, 0x4F)]).reg 0x2C &&& defaultCfg.rx0if = 0 ∧
      (presenting .poll [(0x2C, 0x02), (0x75, 0x4F)]).reg 0x2C &&& defaultCfg.rx1if ≠ 0 ∧
      ((presenting .poll [(0x2C, 0x02), (0x75, 0x4F)]).reg (0x70 + 5) &&& 0x0F).toNat > 8) := by decide
theorem witness_ReceiveConsistentUnderEnv :
    let s := { polled0 with host := [.command (.receive 0)], env := [[.fillRx .rxb0 (zeros 14)]] }
    Presents (.receive 0) [] s ∧ s.spi = [] ∧ s.cfg.wf = true ∧ s.constructed = true ∧ s.reg 0x2C &&& s.cfg.rx0if ≠ 0 ∧
    decodeHeader s.cfg (headerAt s 0x60) = .ok (0x95001234, 2) :=
  ⟨⟨⟨rfl, rfl⟩, rfl⟩, rfl, test_default_cfg_wf, rfl, by decide, rfl⟩
theorem witness_ClearRxFlagClearsOne :
    Presents (.clearRxFlag 1) [] (presenting (.clearRxFlag 1) []) ∧ (1 = 1 ∧ defaultCfg.rx1if = defaultCfg.rx1if) :=
  ⟨(witness_presents _ _).1, rfl, rfl⟩
/-- The longest payload and the empty one. -/
theorem witness_SendLoadsBuffer :
    encodeFrame defaultCfg ⟨0x000007FF, [1, 2, 3, 4, 5, 6, 7, 8]⟩ =
      some (⟨0x00, 0xFF, 0xE0, 0x00, 0x00, 0x08⟩, [1, 2, 3, 4, 5, 6, 7, 8]) ∧
    encodeFrame defaultCfg ⟨0x80000000, []⟩ = some (⟨0x00, 0x00, 0x08, 0x00, 0x00, 0x00⟩, []) ∧
    Presents (.send ⟨0x80000000, []⟩ 2) [] (presenting (.send ⟨0x80000000, []⟩ 2) []) :=
  ⟨by decide, by decide, (witness_presents _ _).1⟩

theorem witness_EnvStepRespectsVolatile :
    isVolatile (small .normal [(0x2C, 0x01)]) 0x60 = false ∧ isVolatile (small .normal [(0x2C, 0x00)]) 0x60 = true ∧
    (zeros 14).length = 14 ∧ (small .normal [(0x2C, 0x02)]).reg 0x2C &&& defaultCfg.rx0if = 0 := by decide

/-- A state in the middle of a command that meets the invariant, and a step from it. -/
def midStatus : State :=
  { small .normal [(0x0E, 0x00)] with tp := some ⟨1, 2, 3, 2, 1⟩, job := some ⟨[.read 0x0E 1], .status⟩ }
theorem witness_invariant : MachineInv midStatus := by
  refine ⟨test_default_cfg_wf, by decide, ?_, rfl, rfl, ⟨fun tp h => ?_, fun _ h => (by cases h)⟩, fun j h => ?_⟩
  · show midStatus.reg 0x0E &&& modeMask = modePattern defaultCfg .normal
    decide
  · cases h; decide
  · cases h
    refine ⟨by decide, fun n hn => ?_, fun hf => by cases hf⟩
    cases hn
    exact ⟨0x0E, rfl⟩
theorem witness_StepKeepsInvariant : MachineInv midStatus ∧ ∃ t, step midStatus = .next t := ⟨witness_invariant, _, rfl⟩
theorem witness_NoFaultUnderInvariant : MachineInv midStatus := witness_invariant

/-- A state with these bytes offered to the SPI port. -/
def offered (tx : List Byte) (s : State) : State := { s with wire := some tx }

/-- By RESET, by a granted request, and by power-up. -/
theorem witness_ModeChangesOnlyOnRequest :
    ((after (step (offered [0xC0] (small .normal [])))).map State.mode = some .powerUp) ∧
    ((after (step (offered [0x05, 0x0F, 0xE0, 0x80] (small .normal [(0x0E, 0), (0x0F, 0)])))).map State.mode = some .config) ∧
    ((after (step { small .normal [] with host := [.targetPowerUp] })).map State.mode = some .powerUp) := by decide
/-- A store in Config, and a WRITE that enters Config on its way to a filter. -/
theorem witness_ProtectedChangesOnlyInConfig :
    isProtected defaultCfg 0x28 = true ∧ isProtected defaultCfg 0x10 = true ∧
    ((after (step (offered [0x02, 0x28, 0x41] (small .config [(0x28, 0x00)])))).map fun t => t.reg 0x28) = some 0x41 ∧
    ((after (step (offered [0x02, 0x0F, 0x80, 0x55] (small .normal [(0x0E, 0), (0x10, 0)])))).map fun t => (t.reg 0x10, t.mode)) =
      some (0x55, .config) := by decide
/-- A construction that begins, one that ends, a failure, and a power-up. -/
theorem witness_BlockRecordWriters :
    ((after (step { State.reset with host := [.command (.construct 8000000 500000)] })).map State.osc = some (some 8000000)) ∧
    ((after (step { State.reset with job := some ⟨[], .construct⟩ })).map State.constructed = some true) ∧
    ((after (step { offered [0x81] (small .normal []) with spi := [.fail 0] })).map State.needsReinit = some true) ∧
    ((after (step { small .normal [] with needsReinit := true, host := [.blockPowerUp] })).map State.needsReinit = some false) := by
  decide
theorem witness_RxFlagClearedOnlyByHost :
    defaultCfg.wf = true ∧ (small .normal [(0x2C, 0x03)]).reg 0x2C &&& defaultCfg.rx0if ≠ 0 ∧
    ((after (step (offered [0x05, 0x2C, 0x01, 0x00] (small .normal [(0x2C, 0x03)])))).map fun t => t.reg 0x2C &&& defaultCfg.rx0if) =
      some 0 := ⟨test_default_cfg_wf, by decide, by decide⟩
/-- A block's move with returned bytes at hand that ends the command, a transaction, and a transaction that fails. -/
theorem witness_ExchangeNotKept :
    ((after (step { midStatus with wire := none, job := some ⟨[], .bytes⟩, response := [0x12] })).map
      fun t => (t.response, t.outcomes)) = some ([], [.ok (.bytes [0x12])]) ∧
    ((after (step (offered [0x81] (small .normal [])))).map State.wire) = some none ∧
    ((after (step { offered [0x81] (small .normal []) with response := [0x12], spi := [.fail 1] })).map
      fun t => (t.response, t.outcomes)) = some ([], [.error (.transportFailure .rtsTxb0)]) := by decide
/-- With a command in progress whose answer is at hand, and with none. -/
theorem witness_NothingKeptBetweenCommands :
    NothingKept { midStatus with wire := none, response := [0x12] } ∧ NothingKept (small .normal []) ∧
    ∃ t, step (small .normal []) = .next t :=
  ⟨fun h => (by cases h), fun _ => ⟨rfl, rfl⟩, _, rfl⟩
theorem witness_ObserversOnlyGrow : ∃ t, step (offered [0x81] (small .normal [])) = .next t := ⟨_, rfl⟩

end Sys2Proof.Tests
end

section
/-! SUPPORT. What every step keeps, said once for the two kinds of step (the target's transaction, the block's move), and
from it the growth of the observers. -/

namespace Sys2Proof.Machine

/-- What a property must be kept by to be kept by every step: what the target does with a clocked byte, and the shared
operations of the exchange, the sequencer and the host port. -/
structure KeptByStep (P : State → Prop) : Prop extends KeptByTarget P where
  setSpi : ∀ s v, P s → P (s.setSpi v)
  setHost : ∀ s es, P s → P (s.setHost es)
  setWire : ∀ s tx, P s → P (s.setWire tx)
  setJob : ∀ s j, P s → P (s.setJob j)
  setResponse : ∀ s r, P s → P (s.setResponse r)
  openWindow : ∀ s, P s → P (openWindow s)
  endTransaction : ∀ s x y, P s → P (endTransaction x y s)
  deliver : ∀ s o, P s → P (deliver o s)
  raiseError : ∀ s e, P s → P (raiseError e s)
  beginInstance : ∀ s osc bitrate tp, P s → P (beginInstance osc bitrate tp s)
  instanceReady : ∀ s, P s → P (instanceReady s)
  reinitDone : ∀ s, P s → P (reinitDone s)
  blockPowerUp : ∀ s, P s → P (blockPowerUp s)

section Keeps

variable {P : State → Prop} {s t : State} (hP : KeptByStep P) (h : P s)
include hP h

/-! ### Accepting a command -/

theorem refuseCommand_keeps (r : RefuseReason) : P (refuseCommand r s) := hP.deliver _ _ h

theorem startJob_keeps (queue : List Instr) (finish : Finish) : P (startJob queue finish s) := hP.setJob _ _ h

theorem acceptWire_keeps (i : Instr) (finish : Finish) : P (acceptWire i finish s) := by
  unfold acceptWire
  split
  · exact refuseCommand_keeps hP h _
  · exact startJob_keeps hP h _ _

theorem acceptRts_keeps (sel : RtsOperand) : P (acceptRts sel s) := by
  unfold acceptRts
  split
  · exact refuseCommand_keeps hP h _
  · exact startJob_keeps hP h _ _

theorem acceptResolve_keeps (osc bitrate : Nat) : P (acceptResolve osc bitrate s) := by
  unfold acceptResolve
  split
  · exact hP.raiseError _ _ h
  · exact hP.deliver _ _ h

theorem acceptPackCNF_keeps (tp : TimingParameters) : P (acceptPackCNF tp s) := by
  unfold acceptPackCNF
  split
  · exact refuseCommand_keeps hP h _
  · exact hP.deliver _ _ h

theorem acceptDecodeHeader_keeps (hd : Header) : P (acceptDecodeHeader hd s) := by
  unfold acceptDecodeHeader
  split
  · exact hP.raiseError _ _ h
  · exact hP.deliver _ _ h

theorem acceptEncodeFrame_keeps (f : CanFrame) : P (acceptEncodeFrame f s) := by
  unfold acceptEncodeFrame
  split
  · exact refuseCommand_keeps hP h _
  · exact hP.deliver _ _ h

theorem acceptConstruct_keeps (osc bitrate : Nat) : P (acceptConstruct osc bitrate s) := by
  unfold acceptConstruct
  split
  · exact hP.raiseError _ _ h
  · split
    · exact refuseCommand_keeps hP h _
    · exact startJob_keeps hP (hP.beginInstance _ _ _ _ h) _ _

theorem acceptReceive_keeps (n : Nat) : P (acceptReceive n s) := by
  unfold acceptReceive
  split
  · exact refuseCommand_keeps hP h _
  · exact startJob_keeps hP h _ _

theorem acceptClearRxFlag_keeps (n : Nat) : P (acceptClearRxFlag n s) := by
  unfold acceptClearRxFlag
  split
  · exact refuseCommand_keeps hP h _
  · exact startJob_keeps hP h _ _

theorem acceptSend_keeps (f : CanFrame) (n : Nat) : P (acceptSend f n s) := by
  unfold acceptSend
  split
  · exact refuseCommand_keeps hP h _
  · split
    · exact refuseCommand_keeps hP h _
    · exact startJob_keeps hP h _ _

theorem acceptReinit_keeps (ha : acceptReinit s = .next t) : P t := by
  unfold acceptReinit at ha
  split at ha
  · cases ha
  · split at ha
    · cases ha; exact refuseCommand_keeps hP h _
    · cases ha; exact startJob_keeps hP h _ _

theorem acceptOpen_keeps {c : Command} (ha : acceptOpen c s = .next t) : P t := by
  cases c with
  | reset => cases ha; exact startJob_keeps hP h _ _
  | readRegisters a n => cases ha; exact acceptWire_keeps hP h _ _
  | writeRegister a d => cases ha; exact acceptWire_keeps hP h _ _
  | modifyRegister a m v => cases ha; exact acceptWire_keeps hP h _ _
  | rts sel => cases ha; exact acceptRts_keeps hP h _
  | resolve osc br => cases ha; exact acceptResolve_keeps hP h _ _
  | packCNF tp => cases ha; exact acceptPackCNF_keeps hP h _
  | decodeHeader hd => cases ha; exact acceptDecodeHeader_keeps hP h _
  | encodeFrame f => cases ha; exact acceptEncodeFrame_keeps hP h _
  | setMode m => cases ha; exact startJob_keeps hP h _ _
  | status => cases ha; exact startJob_keeps hP h _ _
  | construct osc br => cases ha; exact acceptConstruct_keeps hP h _ _
  | reinit => exact acceptReinit_keeps hP h ha
  | receive n => cases ha; exact acceptReceive_keeps hP h _
  | clearRxFlag n => cases ha; exact acceptClearRxFlag_keeps hP h _
  | poll => cases ha; exact startJob_keeps hP h _ _
  | send f n => cases ha; exact acceptSend_keeps hP h _ _

theorem acceptEvent_keeps {e : HostEvent} (ha : acceptEvent e s = .next t) : P t := by
  cases e with
  | command c =>
    simp only [acceptEvent, acceptCommand] at ha
    split at ha
    · exact acceptOpen_keeps hP h ha
    · cases ha; exact refuseCommand_keeps hP h _
  | blockPowerUp => cases ha; exact hP.blockPowerUp _ h
  | targetPowerUp => cases ha; exact hP.setWindow _ _ (hP.reset _ h)

/-! ### Finishing a command -/

theorem finishStatus_keeps (b : Byte) : P (finishStatus b s) := by
  unfold finishStatus
  split
  · exact hP.raiseError _ _ h
  · exact hP.deliver _ _ h

theorem finishPollFlags_keeps (b : Byte) : P (finishPollFlags b s) := by
  unfold finishPollFlags
  split
  · exact startJob_keeps hP h _ _
  · split
    · exact startJob_keeps hP h _ _
    · exact hP.deliver _ _ h

theorem frameRead_keeps (f : CanFrame) (n : RxBuf) (clear : Bool) : P (frameRead f n clear s) := by
  unfold frameRead
  split
  · exact startJob_keeps hP h _ _
  · exact hP.deliver _ _ h

theorem finishHeader_keeps (hd : Header) (n : RxBuf) (clear : Bool) : P (finishHeader hd n clear s) := by
  unfold finishHeader
  split
  · exact hP.raiseError _ _ h
  · split
    · exact startJob_keeps hP h _ _
    · exact frameRead_keeps hP h _ _ _

theorem finishJob_keeps {f : Finish} {r : List Byte} (hf : finishJob f r s = .next t) : P t := by
  cases f with
  | unit => cases hf; exact hP.deliver _ _ h
  | bytes => cases hf; exact hP.deliver _ _ h
  | status =>
    simp only [finishJob] at hf
    split at hf
    · cases hf; exact finishStatus_keeps hP h _
    · cases hf
  | construct => cases hf; exact hP.deliver _ _ (hP.instanceReady _ h)
  | reinit => cases hf; exact hP.deliver _ _ (hP.reinitDone _ h)
  | pollFlags =>
    simp only [finishJob] at hf
    split at hf
    · cases hf; exact finishPollFlags_keeps hP h _
    · cases hf
  | header n clear =>
    simp only [finishJob] at hf
    split at hf
    · cases hf; exact finishHeader_keeps hP h _ _ _
    · cases hf
  | payload n id clear => cases hf; exact frameRead_keeps hP h _ _ _
  | frame fr => cases hf; exact hP.deliver _ _ h

/-! ### The two kinds of step -/

theorem advance_keeps (ha : advance s = .next t) : P t := by
  have h0 : P (s.setResponse []) := hP.setResponse _ _ h
  simp only [advance] at ha
  split at ha
  · split at ha
    · cases ha; exact hP.setJob _ _ (hP.setWire _ _ h0)
    · exact finishJob_keeps hP h0 ha
  · split at ha
    · exact acceptEvent_keeps hP (hP.setHost _ _ h0) ha
    · cases ha; exact envSlot_keeps hP.env hP.setEnv h0

theorem step_keeps (hs : step s = .next t) : P t := by
  obtain ⟨tx, i, -, -, hexec⟩ | ⟨-, hadv⟩ := step_next hs
  · rw [exec_eq_issue] at hexec
    exact issue_keeps hP.toKeptByTarget hP.setSpi hP.openWindow hP.endTransaction hP.setResponse hP.raiseError
      (hP.setWire _ _ h) hexec
  · exact advance_keeps hP h hadv

end Keeps

/-! ### The observers -/

/-- From `s` to `t` the parameters stay and the model's own observers only grow (R8, notes/assumptions/17.md). A
conjunction, so that an operation on other fields keeps it by unfolding. -/
def ObserversGrow (s t : State) : Prop :=
  t.cfg = s.cfg ∧ s.outcomes <+: t.outcomes ∧ s.trace <+: t.trace ∧ s.marks <+: t.marks ∧ s.draws ≤ t.draws

theorem ObserversGrow.refl (s : State) : ObserversGrow s s :=
  ⟨rfl, List.prefix_rfl, List.prefix_rfl, List.prefix_rfl, Nat.le_refl _⟩

theorem ObserversGrow.trans {s t u : State} (h : ObserversGrow s t) (k : ObserversGrow t u) : ObserversGrow s u := by
  obtain ⟨hcfg, hout, htrace, hmarks, hdraws⟩ := h
  obtain ⟨kcfg, kout, ktrace, kmarks, kdraws⟩ := k
  exact ⟨kcfg.trans hcfg, hout.trans kout, htrace.trans ktrace, hmarks.trans kmarks, hdraws.trans kdraws⟩

/-- What happens in the target shows in the marks and the count of free bytes at most. -/
theorem SameOutside.observersGrow {s t : State} (h : SameOutside s t) (hmarks : s.marks <+: t.marks)
    (hdraws : s.draws ≤ t.draws) : ObserversGrow s t :=
  ⟨h.cfg, h.outcomes ▸ List.prefix_rfl, h.trace ▸ List.prefix_rfl, hmarks, hdraws⟩

theorem deliver_observersGrow (o : CmdOutcome) (s : State) : ObserversGrow s (deliver o s) :=
  ⟨rfl, List.prefix_append _ _, List.prefix_rfl, List.prefix_rfl, Nat.le_refl _⟩

theorem raiseError_observersGrow (e : CmdError) (s : State) : ObserversGrow s (raiseError e s) :=
  ⟨rfl, List.prefix_append _ _, List.prefix_rfl, List.prefix_rfl, Nat.le_refl _⟩

theorem endTransaction_observersGrow (sent received : List Byte) (s : State) :
    ObserversGrow s (endTransaction sent received s) :=
  ⟨rfl, List.prefix_rfl, List.prefix_append _ _, List.prefix_rfl, Nat.le_refl _⟩

theorem drawByte_observersGrow (s : State) : ObserversGrow s (drawByte s).2 :=
  (sameOutside_drawByte s).observersGrow List.prefix_rfl (Nat.le_succ _)

theorem envStep_observersGrow (s : State) (e : EnvStep) : ObserversGrow s (envStep s e) := by
  obtain ⟨-, -, -, hmarks, hdraws⟩ := envStep_rest s e
  exact (envStep_sameOutside s e).observersGrow (hmarks ▸ List.prefix_rfl) (Nat.le_of_eq hdraws.symm)

/-- A store leaves the marks or adds the one of a discarded write (R302). -/
theorem storeReg_marks_prefix {a : Nat} {v : Byte} {s t : State} (h : storeReg a v s = .ok t) :
    s.marks <+: t.marks := by
  obtain ⟨-, -, rfl⟩ | ⟨-, -, -, rfl | ⟨-, req, -, -, rfl⟩⟩ := storeReg_ok h
  · exact List.prefix_append _ _
  · exact List.prefix_rfl
  · exact List.prefix_rfl

theorem modifyReg_marks_prefix {a : Nat} {m v : Byte} {s t : State} (h : modifyReg a m v s = .ok t) :
    s.marks <+: t.marks := by
  obtain ⟨-, -, ⟨-, rfl⟩ | ⟨-, rfl⟩⟩ | ⟨-, -, -, rfl | ⟨-, -, req, -, -, rfl⟩⟩ := modifyReg_ok h
  · exact List.prefix_rfl
  · exact List.prefix_append _ _
  · exact List.prefix_rfl
  · exact List.prefix_rfl

theorem storeReg_observersGrow {a : Nat} {v : Byte} {s t : State} (h : storeReg a v s = .ok t) :
    ObserversGrow s t := by
  obtain ⟨-, -, -, hdraws⟩ := storeReg_rest h
  exact (storeReg_sameOutside h).observersGrow (storeReg_marks_prefix h) (Nat.le_of_eq hdraws.symm)

theorem modifyReg_observersGrow {a : Nat} {m v : Byte} {s t : State} (h : modifyReg a m v s = .ok t) :
    ObserversGrow s t := by
  obtain ⟨-, -, -, hdraws⟩ := modifyReg_rest h
  exact (modifyReg_sameOutside h).observersGrow (modifyReg_marks_prefix h) (Nat.le_of_eq hdraws.symm)

/-- Every operation a step is made of takes nothing away from what the observers held in `s₀`. -/
theorem keptByStep_observersGrow (s₀ : State) : KeptByStep (ObserversGrow s₀) where
  env s e h := h.trans (envStep_observersGrow s e)
  setEnv _ _ h := h
  setWindow _ _ h := h
  draw s h := h.trans (drawByte_observersGrow s)
  reset _ h := h
  request _ _ h := h
  store _ _ _ _ _ h he := h.trans (storeReg_observersGrow he)
  modify _ _ _ _ _ _ h he := h.trans (modifyReg_observersGrow he)
  setSpi _ _ h := h
  setHost _ _ h := h
  setWire _ _ h := h
  setJob _ _ h := h
  setResponse _ _ h := h
  openWindow _ h := h
  endTransaction s x y h := h.trans (endTransaction_observersGrow x y s)
  deliver s o h := h.trans (deliver_observersGrow o s)
  raiseError s e h := h.trans (raiseError_observersGrow e s)
  beginInstance _ _ _ _ h := h
  instanceReady _ h := h
  reinitDone _ h := h
  blockPowerUp _ h := h

/-- Settles O58: the growth of the observers since the state before the step is kept by every operation of the step. -/
theorem observersOnlyGrow : Obligations.ObserversOnlyGrow :=
  fun s _ hs => step_keeps (keptByStep_observersGrow s) (ObserversGrow.refl s) hs

end Sys2Proof.Machine
end

section
/-! SUPPORT. What the block's own move can do, said once: the instructions a command queues are well-formed, and an
accepted event or a finished command ends the command, or queues instructions, or writes the block's record. -/

namespace Sys2Proof.Machine

open Sys2Proof.Safety

/-! ### The instructions a command queues are well-formed (R103) -/

theorem setModeInstr_wf {c : Cfg} (h : c.wf = true) (m : OperatingMode) : (setModeInstr c m).wf = true :=
  wf_bitmod.2 (spare_lt (wf_spare h).2.1)

theorem statusRead_wf {c : Cfg} (h : c.wf = true) : (Instr.read c.statAddr 1).wf = true :=
  wf_read.2 ⟨spare_lt (wf_spare h).2.2, Nat.le_refl 1, spare_lt (wf_spare h).2.2⟩

theorem clearFlagInstr_wf (c : Cfg) (n : RxBuf) : (clearFlagInstr c n).wf = true := wf_bitmod.2 (by decide)

theorem headerRead_wf (n : RxBuf) : (headerRead n).wf = true := by cases n <;> decide

theorem payloadRead_wf {n : RxBuf} {k : Nat} (h0 : 0 < k) (h8 : k ≤ 8) :
    (Instr.read (rxBase n + hdrLen) k).wf = true := by
  refine wf_read.2 ⟨?_, h0, ?_⟩ <;> cases n <;> simp only [rxBase, hdrLen] <;> omega

theorem rtsInstr_wf (n : TxBuf) : (rtsInstr n).wf = true := by cases n <;> rfl

theorem rtsOperand_wf {sel : RtsOperand} {i : Instr} (h : rtsOperand sel = some i) : i.wf = true := by
  cases sel with
  | buffer n =>
    obtain ⟨b, -, rfl⟩ := Option.map_eq_some_iff.1 h
    exact rtsInstr_wf b
  | all => cases h; rfl

theorem filterWrite_wf {b : Nat} (h : b + 4 ≤ 0x1C) : (Instr.write b (zeros 4)).wf = true :=
  wf_write.2 ⟨by omega, by decide, by simp [zeros]; omega⟩

theorem zeroWrites_wf {c : Cfg} (h : c.wf = true) : ∀ i ∈ zeroWrites c, i.wf = true := by
  have hf := wf_filters h
  simp only [filterBases, List.mem_cons, List.not_mem_nil, or_false, forall_eq_or_imp, forall_eq] at hf
  obtain ⟨h0, h1, h2, h3, h4, h5⟩ := hf
  simp only [zeroWrites, List.mem_cons, List.not_mem_nil, or_false, forall_eq_or_imp, forall_eq,
    filterWrite_wf h0, filterWrite_wf h1, filterWrite_wf h2, filterWrite_wf h3, filterWrite_wf h4, filterWrite_wf h5]
  decide

theorem byteWrite_wf {a : Nat} (v : Byte) (h : a < 128) : (Instr.write a [v]).wf = true :=
  wf_write.2 ⟨h, Nat.le_refl 1, h⟩

theorem initSequence_wf {c : Cfg} (h : c.wf = true) (cnf : CnfBytes) : ∀ i ∈ initSequence c cnf, i.wf = true := by
  intro i hi
  simp only [initSequence, cnfWrites, List.mem_cons, List.mem_append, List.not_mem_nil, or_false] at hi
  obtain rfl | hz | rfl | (rfl | rfl | rfl) | rfl := hi
  · exact setModeInstr_wf h _
  · exact zeroWrites_wf h i hz
  · exact byteWrite_wf _ (by decide)
  · exact byteWrite_wf _ (by decide)
  · exact byteWrite_wf _ (by decide)
  · exact byteWrite_wf _ (by decide)
  · exact setModeInstr_wf h _

/-- A frame that encodes has at most 8 data bytes (R175, R176). -/
theorem encodeFrame_some {c : Cfg} {f : CanFrame} {r : Header × List Byte} (h : encodeFrame c f = some r) :
    r.2.length ≤ 8 := by
  unfold encodeFrame at h
  split at h
  · rename_i hf
    cases h
    simp only [CanFrame.wf, Bool.and_eq_true, decide_eq_true_eq] at hf
    exact hf.1.1
  · cases h

/-- A header that decodes has a data length of at most 8 (R166). -/
theorem decodeHeader_ok {c : Cfg} {h : Header} {r : Id32 × Nat} (hd : decodeHeader c h = .ok r) : r.2 ≤ 8 := by
  simp only [decodeHeader] at hd
  split at hd
  · cases hd
  · rename_i hle
    cases hd
    simpa only [maxDlc, gt_iff_lt, Nat.not_lt] using hle

theorem decodeHeader_error {c : Cfg} {h : Header} {e : CmdError} (hd : decodeHeader c h = .error e) :
    e.needsReinit = false := by
  simp only [decodeHeader] at hd
  split at hd
  · cases hd; rfl
  · cases hd

theorem sendInstrs_wf {n : TxBuf} {h : Header} {p : List Byte} (hp : p.length ≤ 8) :
    ∀ i ∈ sendInstrs n h p, i.wf = true := by
  have hh : (Instr.write (txBase n) (headerBytes h)).wf = true :=
    wf_write.2 ⟨by cases n <;> decide, by simp [headerBytes], by cases n <;> simp [headerBytes, txBase]⟩
  cases p with
  | nil => simp [sendInstrs, hh, rtsInstr_wf]
  | cons b bs =>
    have hw : (Instr.write (txBase n + hdrLen) (b :: bs)).wf = true := by
      refine wf_write.2 ⟨by cases n <;> decide, by simp, ?_⟩
      cases n <;> simp only [txBase, hdrLen] <;> omega
    simp [sendInstrs, hh, hw, rtsInstr_wf]

theorem packCNF_some {tp : TimingParameters} {cnf : CnfBytes} (h : packCNF tp = some cnf) : tp.wf = true := by
  unfold packCNF at h
  split at h
  · assumption
  · cases h

/-! ### What an accepted event and a finished command do -/

/-- The last instruction queued is the READ whose bytes the command waits for at its end. -/
def QueueAnswers (q : List Instr) (f : Finish) : Prop := ∀ n, awaits f = some n → ∃ a, q.getLast? = some (.read a n)

theorem queueAnswers_of_awaits_none {f : Finish} (h : awaits f = none) (q : List Instr) : QueueAnswers q f := by
  intro n hn; rw [h] at hn; cases hn

/-- A move that leaves the block's record: the command ends with an outcome or an error that is not the transport's,
or it goes on with well-formed instructions. -/
inductive PlainMove (s : State) : State → Prop
  | deliver (o : CmdOutcome) : PlainMove s (deliver o s)
  | raise (e : CmdError) (he : e.needsReinit = false) : PlainMove s (raiseError e s)
  | start (q : List Instr) (f : Finish) (hq : s.cfg.wf = true → ∀ i ∈ q, i.wf = true) (ha : QueueAnswers q f)
      (hf : f ≠ .construct) : PlainMove s (startJob q f s)

/-- One instruction is queued. -/
theorem PlainMove.startOne {s : State} {i : Instr} {f : Finish} (hi : s.cfg.wf = true → i.wf = true)
    (ha : QueueAnswers [i] f) (hf : f ≠ .construct) : PlainMove s (startJob [i] f s) :=
  .start _ _ (fun hc j hj => by rw [List.mem_singleton.1 hj]; exact hi hc) ha hf

/-- What an event taken by the idle block does (R23, R30, R240, R340). -/
inductive EventMove (s : State) : HostEvent → State → Prop
  | plain {e : HostEvent} {t : State} (h : PlainMove s t) : EventMove s e t
  | construct {osc bitrate : Nat} {tp : TimingParameters} {cnf : CnfBytes}
      (hr : resolve s.cfg.timingTable osc bitrate = some tp) (hp : packCNF tp = some cnf) :
      EventMove s (.command (.construct osc bitrate))
        (startJob (initSequence s.cfg cnf) .construct (beginInstance osc bitrate tp s))
  | blockPowerUp : EventMove s .blockPowerUp (blockPowerUp s)
  | targetPowerUp : EventMove s .targetPowerUp (targetPowerUp s)

/-- What follows when the instructions of a command have been issued (R240, R248, R266). -/
inductive FinishMove (s : State) : Finish → State → Prop
  | plain {f : Finish} {t : State} (h : PlainMove s t) : FinishMove s f t
  | construct : FinishMove s .construct (deliver (.ok .unit) (instanceReady s))
  | reinit : FinishMove s .reinit (deliver (.ok .unit) (reinitDone s))

theorem acceptWire_move (i : Instr) {f : Finish} (s : State) (ha : awaits f = none) (hf : f ≠ .construct) :
    PlainMove s (acceptWire i f s) := by
  unfold acceptWire
  split
  · exact .deliver _
  · rename_i hi
    exact .startOne (fun _ => (operandCheck_none i).1 hi) (queueAnswers_of_awaits_none ha _) hf

theorem acceptRts_move (sel : RtsOperand) (s : State) : PlainMove s (acceptRts sel s) := by
  unfold acceptRts
  split
  · exact .deliver _
  · rename_i hi
    exact .startOne (fun _ => rtsOperand_wf hi) (queueAnswers_of_awaits_none rfl _) (by simp)

theorem acceptResolve_move (osc bitrate : Nat) (s : State) : PlainMove s (acceptResolve osc bitrate s) := by
  unfold acceptResolve
  split
  · exact .raise _ rfl
  · exact .deliver _

theorem acceptPackCNF_move (tp : TimingParameters) (s : State) : PlainMove s (acceptPackCNF tp s) := by
  unfold acceptPackCNF
  split <;> exact .deliver _

theorem acceptDecodeHeader_move (h : Header) (s : State) : PlainMove s (acceptDecodeHeader h s) := by
  unfold acceptDecodeHeader
  split
  · rename_i he; exact .raise _ (decodeHeader_error he)
  · exact .deliver _

theorem acceptEncodeFrame_move (f : CanFrame) (s : State) : PlainMove s (acceptEncodeFrame f s) := by
  unfold acceptEncodeFrame
  split <;> exact .deliver _

theorem acceptConstruct_move (osc bitrate : Nat) (s : State) :
    EventMove s (.command (.construct osc bitrate)) (acceptConstruct osc bitrate s) := by
  unfold acceptConstruct
  split
  · exact .plain (.raise _ rfl)
  · split
    · exact .plain (.deliver _)
    · rename_i hr _ _ hp; exact .construct hr hp

theorem acceptReinit_move {s t : State} (h : acceptReinit s = .next t) : PlainMove s t := by
  unfold acceptReinit at h
  split at h
  · cases h
  · split at h
    · cases h; exact .deliver _
    · cases h
      exact .start _ _ (fun hc => initSequence_wf hc _) (queueAnswers_of_awaits_none rfl _) (by simp)

/-- A header is read from a receive buffer (R262). -/
theorem headerRead_move (n : RxBuf) (clear : Bool) (s : State) :
    PlainMove s (startJob [headerRead n] (.header n clear) s) :=
  .startOne (fun _ => headerRead_wf n) (fun k hk => by cases hk; exact ⟨rxBase n, rfl⟩) (by simp)

theorem acceptReceive_move (n : Nat) (s : State) : PlainMove s (acceptReceive n s) := by
  unfold acceptReceive
  split
  · exact .deliver _
  · exact headerRead_move _ _ s

theorem acceptClearRxFlag_move (n : Nat) (s : State) : PlainMove s (acceptClearRxFlag n s) := by
  unfold acceptClearRxFlag
  split
  · exact .deliver _
  · exact .startOne (fun _ => clearFlagInstr_wf _ _) (queueAnswers_of_awaits_none rfl _) (by simp)

theorem acceptSend_move (f : CanFrame) (n : Nat) (s : State) : PlainMove s (acceptSend f n s) := by
  unfold acceptSend
  split
  · exact .deliver _
  · split
    · exact .deliver _
    · rename_i hr
      exact .start _ _ (fun _ => sendInstrs_wf (encodeFrame_some hr)) (queueAnswers_of_awaits_none rfl _) (by simp)

theorem acceptOpen_move {c : Command} {s t : State} (h : acceptOpen c s = .next t) :
    EventMove s (.command c) t := by
  cases c with
  | reset => cases h; exact .plain (.startOne (fun _ => rfl) (queueAnswers_of_awaits_none rfl _) (by simp))
  | readRegisters a n => cases h; exact .plain (acceptWire_move _ s rfl (by simp))
  | writeRegister a d => cases h; exact .plain (acceptWire_move _ s rfl (by simp))
  | modifyRegister a m v => cases h; exact .plain (acceptWire_move _ s rfl (by simp))
  | rts sel => cases h; exact .plain (acceptRts_move sel s)
  | resolve osc br => cases h; exact .plain (acceptResolve_move osc br s)
  | packCNF tp => cases h; exact .plain (acceptPackCNF_move tp s)
  | decodeHeader hd => cases h; exact .plain (acceptDecodeHeader_move hd s)
  | encodeFrame f => cases h; exact .plain (acceptEncodeFrame_move f s)
  | setMode m =>
    cases h
    exact .plain (.startOne (fun hc => setModeInstr_wf hc m) (queueAnswers_of_awaits_none rfl _) (by simp))
  | status =>
    cases h
    exact .plain (.startOne statusRead_wf (fun n hn => by cases hn; exact ⟨_, rfl⟩) (by simp))
  | construct osc br => cases h; exact acceptConstruct_move osc br s
  | reinit => exact .plain (acceptReinit_move h)
  | receive n => cases h; exact .plain (acceptReceive_move n s)
  | clearRxFlag n => cases h; exact .plain (acceptClearRxFlag_move n s)
  | poll =>
    cases h
    exact .plain (.startOne (fun _ => rfl) (fun n hn => by cases hn; exact ⟨_, rfl⟩) (by simp))
  | send f n => cases h; exact .plain (acceptSend_move f n s)

theorem acceptEvent_move {e : HostEvent} {s t : State} (h : acceptEvent e s = .next t) : EventMove s e t := by
  cases e with
  | command c =>
    simp only [acceptEvent, acceptCommand] at h
    split at h
    · exact acceptOpen_move h
    · cases h; exact .plain (.deliver _)
  | blockPowerUp => cases h; exact .blockPowerUp
  | targetPowerUp => cases h; exact .targetPowerUp

theorem finishStatus_move (b : Byte) (s : State) : PlainMove s (finishStatus b s) := by
  unfold finishStatus
  split
  · exact .raise _ rfl
  · exact .deliver _

theorem finishPollFlags_move (b : Byte) (s : State) : PlainMove s (finishPollFlags b s) := by
  unfold finishPollFlags
  split
  · exact headerRead_move _ _ s
  · split
    · exact headerRead_move _ _ s
    · exact .deliver _

theorem frameRead_move (f : CanFrame) (n : RxBuf) (clear : Bool) (s : State) :
    PlainMove s (frameRead f n clear s) := by
  unfold frameRead
  split
  · exact .startOne (fun _ => clearFlagInstr_wf _ _) (queueAnswers_of_awaits_none rfl _) (by simp)
  · exact .deliver _

theorem finishHeader_move (h : Header) (n : RxBuf) (clear : Bool) (s : State) :
    PlainMove s (finishHeader h n clear s) := by
  unfold finishHeader
  split
  · rename_i he; exact .raise _ (decodeHeader_error he)
  · split
    · rename_i hd hpos
      have hread := payloadRead_wf (n := n) hpos (decodeHeader_ok hd)
      exact .startOne (fun _ => hread) (queueAnswers_of_awaits_none rfl _) (by simp)
    · exact frameRead_move _ n clear s

theorem finishJob_move {f : Finish} {r : List Byte} {s t : State} (h : finishJob f r s = .next t) :
    FinishMove s f t := by
  cases f with
  | unit => cases h; exact .plain (.deliver _)
  | bytes => cases h; exact .plain (.deliver _)
  | status =>
    simp only [finishJob] at h
    split at h
    · cases h; exact .plain (finishStatus_move _ s)
    · cases h
  | construct => cases h; exact .construct
  | reinit => cases h; exact .reinit
  | pollFlags =>
    simp only [finishJob] at h
    split at h
    · cases h; exact .plain (finishPollFlags_move _ s)
    · cases h
  | header n clear =>
    simp only [finishJob] at h
    split at h
    · cases h; exact .plain (finishHeader_move _ n clear s)
    · cases h
  | payload n id clear => cases h; exact .plain (frameRead_move _ n clear s)
  | frame fr => cases h; exact .plain (.deliver _)

/-! ### The block's move -/

/-- The state in which the next instruction of a command has been offered to the SPI port (R28, R105). -/
def offer (i : Instr) (q : List Instr) (f : Finish) (s : State) : State :=
  ((s.setResponse []).setWire (some (encode i))).setJob (some ⟨q, f⟩)

theorem advance_offer {i : Instr} {q : List Instr} {f : Finish} {s : State} (hj : s.job = some ⟨i :: q, f⟩) :
    advance s = .next (offer i q f s) := by simp only [advance, hj, offer]

theorem advance_finish {f : Finish} {s : State} (hj : s.job = some ⟨[], f⟩) :
    advance s = finishJob f s.response (s.setResponse []) := by simp only [advance, hj]

theorem advance_event {e : HostEvent} {es : List HostEvent} {s : State} (hj : s.job = none) (hh : s.host = e :: es) :
    advance s = acceptEvent e ((s.setResponse []).setHost es) := by simp only [advance, hj, hh]

theorem advance_wait {s : State} (hj : s.job = none) (hh : s.host = []) :
    advance s = .next (envSlot (s.setResponse [])) := by simp only [advance, hj, hh]

/-- What the block's move has done when it answers a next state: one of four things, after discarding what the last
instruction returned (R28, R130). -/
inductive Moved (s : State) : State → Prop
  | offer {i : Instr} {q : List Instr} {f : Finish} (hj : s.job = some ⟨i :: q, f⟩) : Moved s (offer i q f s)
  | finish {f : Finish} {t : State} (hj : s.job = some ⟨[], f⟩) (h : FinishMove (s.setResponse []) f t) : Moved s t
  | event {e : HostEvent} {es : List HostEvent} {t : State} (hj : s.job = none) (hh : s.host = e :: es)
      (h : EventMove ((s.setResponse []).setHost es) e t) : Moved s t
  | wait (hj : s.job = none) (hh : s.host = []) : Moved s (envSlot (s.setResponse []))

theorem advance_moved {s t : State} (h : advance s = .next t) : Moved s t := by
  match hj : s.job, hh : s.host with
  | some ⟨i :: q, f⟩, _ => rw [advance_offer hj] at h; cases h; exact .offer hj
  | some ⟨[], f⟩, _ => rw [advance_finish hj] at h; exact .finish hj (finishJob_move h)
  | none, e :: es => rw [advance_event hj hh] at h; exact .event hj hh (acceptEvent_move h)
  | none, [] => rw [advance_wait hj hh] at h; cases h; exact .wait hj hh

end Sys2Proof.Machine
end

section
/-! SUPPORT. An instruction on the wire, ENV included: the decoder inverts the encoder, the target's decoder does with
byte n of an encoded instruction what `byteEffect` says, and an exchange is those effects in order. -/

namespace Sys2Proof.Machine

open Sys2Proof.Safety

/-! ### The decoder inverts the encoder (R103) -/

theorem decodeR_encode {a n : Nat} (h : (Instr.read a n).wf = true) :
    decodeR (BitVec.ofNat 8 a :: List.replicate n fillByte) = .ok (.read a n) := by
  obtain ⟨ha, h1, hn⟩ := wf_read.1 h
  obtain ⟨k, rfl⟩ : ∃ k, n = k + 1 := ⟨n - 1, by omega⟩
  have hb := getLsb_address (show a < regCount from ha)
  simp only [List.replicate_succ, decodeR, hb, List.length_cons, List.length_replicate]
  rw [if_neg (by omega), if_neg (by omega)]

theorem decodeW_encode {a : Nat} {d : List Byte} (h : (Instr.write a d).wf = true) :
    decodeW (BitVec.ofNat 8 a :: d) = .ok (.write a d) := by
  obtain ⟨ha, h1, hn⟩ := wf_write.1 h
  have hb := getLsb_address (show a < regCount from ha)
  cases d with
  | nil => simp at h1
  | cons b bs =>
    simp only [decodeW, hb]
    rw [if_neg (by omega), if_neg (by omega)]

theorem decodeM_encode {a : Nat} {m v : Byte} (h : (Instr.bitmod a m v).wf = true) :
    decodeM [BitVec.ofNat 8 a, m, v] = .ok (.bitmod a m v) := by
  have ha := wf_bitmod.1 h
  simp only [decodeM, getLsb_address (show a < regCount from ha)]
  rw [if_neg (by omega)]

theorem decode_encode {i : Instr} (h : i.wf = true) : decode (encode i) = .ok i := by
  cases i with
  | read a n => exact decodeR_encode h
  | write a d => exact decodeW_encode h
  | bitmod a m v => exact decodeM_encode h
  | _ => rfl

/-! ### The bytes of an instruction -/

/-- What the target does with byte n of an instruction, and the byte it drives back (R132 to R148). -/
def byteEffect (i : Instr) (n : Nat) (s : State) : Except Refusal (Byte × State) :=
  match i with
  | .reset => .ok (drawByte (targetReset s))
  | .read a _ => if n < 2 then .ok (drawByte s) else .ok (sampleReg (a + (n - 2)) s)
  | .write a d => if n < 2 then .ok (drawByte s) else (storeReg (a + (n - 2)) (d.getD (n - 2) 0) s).map drawByte
  | .bitmod a m v => if n = 3 then (modifyReg a m v s).map drawByte else .ok (drawByte s)
  | .rtsTxb0 => .ok (drawByte (requestTx 0x01 s))
  | .rtsTxb1 => .ok (drawByte (requestTx 0x02 s))
  | .rtsTxb2 => .ok (drawByte (requestTx 0x04 s))
  | .rtsAll => .ok (drawByte (requestTx 0x07 s))

/-- The target's decoder when it has received n bytes of an instruction (R148). -/
def windowAt (i : Instr) : Nat → Window
  | 0 => ⟨0, 0, 0, 0⟩
  | 1 => ⟨1, (encode i).headD 0, 0, 0⟩
  | k + 2 =>
    match i with
    | .read a _ => ⟨k + 2, opRead, a + k, 0⟩
    | .write a _ => ⟨k + 2, opWrite, a + k, 0⟩
    | .bitmod a m _ => ⟨k + 2, opBitmod, a, if k = 0 then 0 else m⟩
    | _ => ⟨k + 2, (encode i).headD 0, 0, 0⟩

theorem envSlot_window {s : State} {w : Option Window} (h : s.window = w) : (envSlot s).window = w :=
  (envSlot_rest s).2.1.trans h

/-- A clocked byte is ENV's slot and then the decoder's step, which depends on the bytes received so far. -/
theorem clockByte_window {b : Byte} {w : Window} {s : State} (h : s.window = some w) :
    clockByte b s =
      if w.k = 0 then (opcodeByte b (envSlot s)).map drawByte
      else if w.k = 1 then (addressByte w b (envSlot s)).map drawByte
      else dataByte w b (envSlot s) := by
  simp only [clockByte, envSlot_window h]

/-- Byte 0 (R148): the opcode. -/
theorem clockByte_first {i : Instr} {b : Byte} {s : State} (hb : (encode i)[0]? = some b)
    (hw : s.window = some (windowAt i 0)) :
    clockByte b s = (byteEffect i 0 (envSlot s)).map fun p => (p.1, p.2.setWindow (some (windowAt i 1))) := by
  rw [clockByte_window hw]
  cases i <;> cases hb <;> rfl

/-- Byte 1 (R148): the address. -/
theorem clockByte_second {i : Instr} (hi : i.wf = true) {b : Byte} {s : State} (hb : (encode i)[1]? = some b)
    (hw : s.window = some (windowAt i 1)) :
    clockByte b s = (byteEffect i 1 (envSlot s)).map fun p => (p.1, p.2.setWindow (some (windowAt i 2))) := by
  have haddr : ∀ {a : Nat}, a < 128 → (encode i)[1]? = some (BitVec.ofNat 8 a) →
      hasOperands ((encode i).headD 0) = true →
      clockByte b s = .ok (Config.freeByte (envSlot s).draws,
        (drawByte ((envSlot s).setWindow (some ⟨2, (encode i).headD 0, a, 0⟩))).2) := by
    intro a ha hb' hop
    have hba : b = BitVec.ofNat 8 a := Option.some.inj (hb.symm.trans hb')
    have hlt := getLsb_address (show a < regCount from ha)
    rw [clockByte_window hw, hba]
    simp only [windowAt, addressByte, hop, hlt, show ¬ a ≥ regCount from Nat.not_le.2 ha]
    rfl
  cases i with
  | read a n => exact haddr (wf_read.1 hi).1 rfl rfl
  | write a d => exact haddr (wf_write.1 hi).1 rfl rfl
  | bitmod a m v => exact haddr (wf_bitmod.1 hi) rfl rfl
  | _ => cases hb

/-- A byte from byte 2 on (R135, R138, R141). -/
theorem clockByte_later {i : Instr} (hi : i.wf = true) {k : Nat} {b : Byte} {s : State}
    (hb : (encode i)[k + 2]? = some b) (hw : s.window = some (windowAt i (k + 2))) :
    clockByte b s =
      (byteEffect i (k + 2) (envSlot s)).map fun p => (p.1, p.2.setWindow (some (windowAt i (k + 3)))) := by
  rw [clockByte_window hw]
  have hk : k < (encode i).length - 2 := by
    have := (List.getElem?_eq_some_iff.1 hb).1
    omega
  cases i with
  | read a n =>
    obtain ⟨ha, -, hn⟩ := wf_read.1 hi
    have hap : ¬ a + k ≥ regCount := by simp [encode] at hk; simp only [regCount]; omega
    simp [windowAt, dataByte, byteEffect, hap, Except.map, Nat.add_assoc]
  | write a d =>
    obtain ⟨ha, -, hn⟩ := wf_write.1 hi
    have hap : ¬ a + k ≥ regCount := by simp [encode] at hk; simp only [regCount]; omega
    have hd : d.getD k 0 = b := by
      have : d[k]? = some b := by simpa [encode] using hb
      simp [List.getD, this]
    have hop : ¬ opWrite = opRead := by decide
    simp only [windowAt, dataByte, byteEffect, hop, hap, if_false, if_true, Nat.add_sub_cancel, hd]
    cases storeReg (a + k) b (envSlot s) with
    | error r => rfl
    | ok t => simp only [Except.map, Nat.add_assoc, Nat.reduceAdd]; rfl
  | bitmod a m v =>
    simp only [encode, List.length_cons, List.length_nil] at hk
    obtain rfl | rfl : k = 0 ∨ k = 1 := by omega
    · cases hb; rfl
    · have hv : b = v := (Option.some.inj hb).symm
      simp only [windowAt, dataByte, byteEffect, hv, show ¬ opBitmod = opRead by decide,
        show ¬ opBitmod = opWrite by decide, Nat.reduceAdd, OfNat.ofNat_ne_zero, OfNat.ofNat_ne_one, one_ne_zero,
        Nat.reduceEqDiff, if_true, if_false]
      cases modifyReg a m v (envSlot s) <;> rfl
  | _ => simp [encode] at hk

/-- Byte n of an instruction (R148): ENV's slot, the byte's effect, and the window of one byte more. -/
theorem clockByte_encode {i : Instr} (hi : i.wf = true) {n : Nat} {b : Byte} {s : State}
    (hb : (encode i)[n]? = some b) (hw : s.window = some (windowAt i n)) :
    clockByte b s = (byteEffect i n (envSlot s)).map fun p => (p.1, p.2.setWindow (some (windowAt i (n + 1)))) :=
  match n with
  | 0 => clockByte_first hb hw
  | 1 => clockByte_second hi hb hw
  | _ + 2 => clockByte_later hi hb hw

/-- A whole instruction passes the target's check at the release of chip-select (R148). -/
theorem releaseCheck_windowAt {i : Instr} (hi : i.wf = true) :
    releaseCheck (some (windowAt i (encode i).length)) = none := by
  cases i with
  | read a n =>
    obtain ⟨k, rfl⟩ : ∃ k, n = k + 1 := ⟨n - 1, by have := (wf_read.1 hi).2.1; omega⟩
    simp [encode, windowAt, releaseCheck, opRead, opBitmod]
  | write a d =>
    have := (wf_write.1 hi).2.1
    simp [encode, windowAt, releaseCheck, opWrite, opBitmod]
    omega
  | _ => rfl

/-! ### What an exchange keeps, byte by byte -/

/-- What a relation between the bytes driven back and the state must be kept by to hold after any part of an
exchange of `i`: ENV, the decoder's bookkeeping, and the effect of each byte. -/
structure KeptByBytes (i : Instr) (Q : List Byte → State → Prop) : Prop where
  env : ∀ rx s e, Q rx s → Q rx (envStep s e)
  setEnv : ∀ rx s e, Q rx s → Q rx (s.setEnv e)
  setWindow : ∀ rx s w, Q rx s → Q rx (s.setWindow w)
  byte : ∀ rx s o t, rx.length < (encode i).length → Q rx s → byteEffect i rx.length s = .ok (o, t) →
    Q (rx ++ [o]) t

/-- The rest of an exchange: the relation is kept, and the window is that of the bytes received; the exchange stops
only where the effect of a byte is refused. -/
theorem clockBytes_encode {i : Instr} (hi : i.wf = true) {Q : List Byte → State → Prop} (hQ : KeptByBytes i Q)
    {bs rx : List Byte} {s : State} (hbs : bs <+: (encode i).drop rx.length)
    (hw : s.window = some (windowAt i rx.length)) (h : Q rx s) :
    (∀ os t, clockBytes bs s = .ok (os, t) →
      Q (rx ++ os) t ∧ t.window = some (windowAt i (rx.length + bs.length))) ∧
    (∀ r, clockBytes bs s = .error r → ∃ n u, byteEffect i n u = .error r) := by
  induction bs generalizing rx s with
  | nil =>
    refine ⟨fun os t ht => ?_, fun r hr => by cases hr⟩
    cases ht
    exact ⟨by simpa using h, hw⟩
  | cons b bs ih =>
    have hb : (encode i)[rx.length]? = some b := by
      obtain ⟨l, hl⟩ := hbs
      have : ((encode i).drop rx.length)[0]? = some b := by rw [← hl]; rfl
      simpa using this
    have hbs' : ∀ o : Byte, bs <+: (encode i).drop (rx ++ [o]).length := by
      intro o
      obtain ⟨l, hl⟩ := hbs
      refine ⟨l, ?_⟩
      rw [List.length_append, List.length_singleton, ← List.drop_drop, ← hl]
      rfl
    have henv : Q rx (envSlot s) := envSlot_keeps (hQ.env rx) (hQ.setEnv rx) h
    have hstep := clockByte_encode hi hb hw
    cases hbe : byteEffect i rx.length (envSlot s) with
    | error r =>
      rw [hbe] at hstep
      simp only [clockBytes, hstep, Except.map]
      exact ⟨fun os t ht => by simp at ht, fun r' hr => by cases hr; exact ⟨_, _, hbe⟩⟩
    | ok p =>
      obtain ⟨o, u⟩ := p
      rw [hbe] at hstep
      have hu : Q (rx ++ [o]) (u.setWindow (some (windowAt i (rx ++ [o]).length))) :=
        hQ.setWindow _ _ _ (hQ.byte _ _ _ _ (List.getElem?_eq_some_iff.1 hb).1 henv hbe)
      obtain ⟨hok, herr⟩ := ih (hbs' o) rfl hu
      simp only [List.length_append, List.length_singleton] at hok herr
      simp only [clockBytes, hstep, Except.map]
      refine ⟨fun os t ht => ?_, fun r hr => ?_⟩
      · split at ht
        · cases ht
        · rename_i os' t' ht'
          cases ht
          obtain ⟨h1, h2⟩ := hok _ _ ht'
          refine ⟨by simpa using h1, ?_⟩
          rw [h2, List.length_cons, Nat.add_assoc, Nat.add_comm 1]
      · split at hr
        · rename_i r' hr'; cases hr; exact herr _ hr'
        · cases hr

/-- The bytes that reach the target are the first bytes of the instruction (R145). -/
theorem sentBytes_prefix (v : Verdict) (i : Instr) : sentBytes v (encode i) <+: encode i := by
  rw [sentBytes_eq_take]
  exact List.take_prefix _ _

/-- A relation kept by every byte holds of what `issue` hands to the block (R130). -/
theorem issue_bytes {i : Instr} {Q : List Byte → State → Prop} (hQ : KeptByBytes i Q) {s t : State}
    (h : Q [] (openWindow (nextVerdict s).2)) (hs : issue i s = .next t) :
    ∃ rx u, Q rx u ∧ t = concludeIssue i (returnedBytes (nextVerdict s).1 rx)
      (endTransaction (sentBytes (nextVerdict s).1 (encode i)) rx u) := by
  obtain ⟨hi, rx, u, hu, -, rfl⟩ := issue_next hs
  refine ⟨rx, u, ?_, rfl⟩
  simpa using ((clockBytes_encode hi hQ (rx := []) (sentBytes_prefix _ i) rfl h).1 rx u hu).1

/-! ### The effect of a byte, taken apart -/

/-- What byte n of an instruction has changed in the target. -/
inductive ByteChange (i : Instr) (n : Nat) (s : State) : State → Prop
  | none : ByteChange i n s s
  | reset (hi : i = .reset) : ByteChange i n s (targetReset s)
  | request (sel : Byte) : ByteChange i n s (requestTx sel s)
  | store {a k : Nat} {d : List Byte} {u : State} (hi : i = .write a d) (hn : n = k + 2)
      (h : storeReg (a + k) (d.getD k 0) s = .ok u) : ByteChange i n s u
  | modify {a : Nat} {m v : Byte} {u : State} (hi : i = .bitmod a m v) (hn : n = 3)
      (h : modifyReg a m v s = .ok u) : ByteChange i n s u

/-- The effect of a byte is a change of the target, and a free byte drawn or none. -/
theorem byteEffect_ok {i : Instr} {n : Nat} {s t : State} {o : Byte} (h : byteEffect i n s = .ok (o, t)) :
    ∃ u, ByteChange i n s u ∧ (t = u ∨ t = (drawByte u).2) := by
  cases i with
  | reset => cases h; exact ⟨_, .reset rfl, .inr rfl⟩
  | read a c =>
    simp only [byteEffect] at h
    split at h
    · cases h; exact ⟨_, .none, .inr rfl⟩
    · obtain rfl : (sampleReg (a + (n - 2)) s).2 = t := congrArg Prod.snd (Except.ok.inj h)
      exact ⟨_, .none, sampleReg_snd _ s⟩
  | write a d =>
    simp only [byteEffect] at h
    split at h
    · cases h; exact ⟨_, .none, .inr rfl⟩
    · cases hs : storeReg (a + (n - 2)) (d.getD (n - 2) 0) s with
      | error r => rw [hs] at h; cases h
      | ok u => rw [hs] at h; cases h; exact ⟨u, .store rfl (by omega) hs, .inr rfl⟩
  | bitmod a m v =>
    simp only [byteEffect] at h
    split at h
    · cases hs : modifyReg a m v s with
      | error r => rw [hs] at h; cases h
      | ok u => rw [hs] at h; cases h; exact ⟨u, .modify rfl ‹_› hs, .inr rfl⟩
    · cases h; exact ⟨_, .none, .inr rfl⟩
  | rtsTxb0 => cases h; exact ⟨_, .request _, .inr rfl⟩
  | rtsTxb1 => cases h; exact ⟨_, .request _, .inr rfl⟩
  | rtsTxb2 => cases h; exact ⟨_, .request _, .inr rfl⟩
  | rtsAll => cases h; exact ⟨_, .request _, .inr rfl⟩

end Sys2Proof.Machine
end

section
/-! SUPPORT. What an ENV step does to one register (R38, R39, R144), and O51 from it. -/

namespace Sys2Proof.Machine

open Sys2Proof.Safety

/-! ### Addresses the fixed map names -/

/-- The control and status registers are apart from every register the fixed map names (D13). -/
theorem spare_ne {c : Cfg} {a b : Nat} (h : isSpareAddr c a = true) (hb : isFixedNamed b = true) : a ≠ b := by
  rintro rfl
  exact absurd hb (by simp [spare_fixed h])

theorem txBase_named (n : TxBuf) : isFixedNamed (txBase n) = true := by cases n <;> decide

theorem rxBlock_named {n : RxBuf} {a : Nat} (h : inBlock (rxBase n) blockLen a = true) : isFixedNamed a = true := by
  cases n <;> simp only [rxBase] at h <;> simp [isFixedNamed, isBufferByte, h]

theorem errorRegister_named {a : Nat} (h : a = errCnt0Addr ∨ a = errCnt1Addr ∨ a = eflgAddr) :
    isFixedNamed a = true := by
  obtain rfl | rfl | rfl := h <;> decide

theorem inBlock_iff {b n a : Nat} : inBlock b n a = true ↔ b ≤ a ∧ a < b + n := by simp [inBlock]

/-! ### The bits of a byte -/

/-- A bit-modify keeps the bits outside its mask. -/
theorem bitModify_and_outside {old mask value k : Byte} (h : mask &&& k = 0) :
    bitModify old mask value &&& k = old &&& k := by
  ext i hi
  have hi' : (mask &&& k)[i] = false := by simp [h]
  simp only [bitModify, BitVec.getElem_and, BitVec.getElem_or, BitVec.getElem_not] at hi' ⊢
  cases hm : mask[i] <;> simp_all

theorem and_not_or_self (x m : Byte) : x &&& ~~~(x ||| m) = 0 := by
  ext i hi
  cases h : x[i] <;> simp [h]

/-! ### One ENV step and one register -/

/-- What an ENV step may make of register `a` (R38): nothing, a flag more, other status bits, or a free value where
the register is volatile. -/
inductive EnvChange (s : State) (a : Nat) : Byte → Prop
  | same : EnvChange s a (s.reg a)
  | flags (ha : a = intfAddr) (m : Byte) : EnvChange s a (s.reg a ||| m)
  | status (ha : a = s.cfg.statAddr) (v : Byte) : EnvChange s a (bitModify (s.reg a) (~~~modeMask) v)
  | errors (ha : a = errCnt0Addr ∨ a = errCnt1Addr ∨ a = eflgAddr) (v : Byte) : EnvChange s a v
  | txControl (n : TxBuf) (ha : a = txBase n) (v : Byte) : EnvChange s a v
  | rxBlock (n : RxBuf) (ha : inBlock (rxBase n) blockLen a = true)
      (hf : flagSet (s.reg intfAddr) (rxFlag s.cfg n) = false) (v : Byte) : EnvChange s a v

theorem envChange_setFlags {s u : State} {a : Nat} (m : Byte) (hi : u.reg intfAddr = s.reg intfAddr)
    (h : EnvChange s a (u.reg a)) : EnvChange s a ((setFlags m u).reg a) := by
  rw [setFlags, reg_setReg]
  split
  · rename_i ha
    subst ha
    rw [hi]
    exact .flags rfl m
  · exact h

theorem envChange_setReg {s : State} {a b : Nat} {v : Byte} (h : a = b → EnvChange s a v) :
    EnvChange s a ((s.setReg b v).reg a) := by
  rw [reg_setReg]
  split
  · exact h ‹_›
  · exact .same

theorem envChange_fillRx (n : RxBuf) (block : List Byte) (s : State) (a : Nat) :
    EnvChange s a ((fillRx n block s).reg a) := by
  have hlen : (block.take blockLen).length ≤ blockLen := List.length_take_le _ _
  unfold fillRx
  split
  · exact .same
  · rename_i hf
    refine envChange_setFlags _ (reg_putBytes_outside s (.inl ?_)) ?_
    · cases n <;> decide
    · by_cases ha : inBlock (rxBase n) blockLen a = true
      · exact .rxBlock n ha (by simpa using hf) _
      · rw [inBlock_iff] at ha
        rw [reg_putBytes_outside s (by omega)]
        exact .same

theorem envChange_finishTx (n : TxBuf) (v : Byte) (s : State) (a : Nat) : EnvChange s a ((finishTx n v s).reg a) := by
  unfold finishTx
  split
  · refine envChange_setFlags _ ?_ ?_
    · rw [reg_setRequested]
      exact reg_setReg_other s v (by cases n <;> decide)
    · exact envChange_setReg fun ha => .txControl n ha v
  · exact .same

theorem envStep_change (s : State) (e : EnvStep) (a : Nat) : EnvChange s a ((envStep s e).reg a) := by
  cases e with
  | raiseFlags m => exact envChange_setFlags _ rfl .same
  | fillRx n block => exact envChange_fillRx n block s a
  | errorCounter0 v => exact envChange_setReg fun ha => .errors (.inl ha) v
  | errorCounter1 v => exact envChange_setReg fun ha => .errors (.inr (.inl ha)) v
  | errorFlags v => exact envChange_setReg fun ha => .errors (.inr (.inr ha)) v
  | statusBits v => exact envChange_setReg fun ha => by subst ha; exact .status rfl v
  | txControl n v => exact envChange_setReg fun ha => .txControl n ha v
  | txDone n v => exact envChange_finishTx n v s a

/-- A register that is not volatile keeps its value. -/
theorem reg_envStep_of_not_volatile {s : State} {a : Nat} (e : EnvStep) (h : isVolatile s a = false) :
    (envStep s e).reg a = s.reg a := by
  have hc := envStep_change s e a
  simp only [isVolatile, Bool.or_eq_false_iff, decide_eq_false_iff_not, Bool.and_eq_false_iff,
    Bool.not_eq_false'] at h
  obtain ⟨⟨⟨⟨⟨⟨⟨⟨⟨hintf, herr0⟩, herr1⟩, heflg⟩, hstat⟩, htx0⟩, htx1⟩, htx2⟩, hrx0⟩, hrx1⟩ := h
  generalize (envStep s e).reg a = v at hc
  cases hc with
  | same => rfl
  | flags ha => exact absurd ha hintf
  | status ha => exact absurd ha hstat
  | errors ha => simp [herr0, herr1, heflg] at ha
  | txControl n ha => cases n <;> contradiction
  | rxBlock n ha hf => cases n <;> simp_all [rxFlag]

/-- A register the fixed map does not name is changed in the status bits at most. -/
theorem reg_envStep_spare {s : State} {a : Nat} (e : EnvStep) (h : isFixedNamed a = false) (hs : a ≠ s.cfg.statAddr) :
    (envStep s e).reg a = s.reg a := by
  have hne : ∀ {b}, isFixedNamed b = true → a ≠ b := by rintro b hb rfl; simp [h] at hb
  have hc := envStep_change s e a
  generalize (envStep s e).reg a = v at hc
  cases hc with
  | same => rfl
  | flags ha => exact absurd ha (hne (by decide))
  | status ha => exact absurd ha hs
  | errors ha => exact absurd rfl (hne (errorRegister_named ha))
  | txControl n ha => exact absurd ha (hne (txBase_named n))
  | rxBlock n ha => rw [rxBlock_named ha] at h; cases h

/-- The mode bits of the status register stay (R38). -/
theorem statusMode_envStep {s : State} (e : EnvStep) (hc : s.cfg.wf = true) :
    (envStep s e).reg s.cfg.statAddr &&& modeMask = s.reg s.cfg.statAddr &&& modeMask := by
  have hs := (wf_spare hc).2.2
  have hch := envStep_change s e s.cfg.statAddr
  generalize (envStep s e).reg s.cfg.statAddr = v at hch
  cases hch with
  | same => rfl
  | flags ha => exact absurd ha (spare_ne hs (by decide))
  | status ha v => exact bitModify_and_outside (by decide)
  | errors ha => exact absurd rfl (spare_ne hs (errorRegister_named ha))
  | txControl n ha => exact absurd ha (spare_ne hs (txBase_named n))
  | rxBlock n ha => exact absurd rfl (spare_ne hs (rxBlock_named ha))

/-- INTF only gains flags (R38, R305). -/
theorem intf_envStep {s : State} (e : EnvStep) (hc : s.cfg.wf = true) :
    ∃ m, (envStep s e).reg intfAddr = s.reg intfAddr ||| m := by
  have hch := envStep_change s e intfAddr
  generalize (envStep s e).reg intfAddr = v at hch
  cases hch with
  | same => exact ⟨0, by simp⟩
  | flags ha m => exact ⟨m, rfl⟩
  | status ha => exact absurd ha.symm (spare_ne (wf_spare hc).2.2 (by decide))
  | errors ha => exact absurd ha (by decide)
  | txControl n ha => cases n <;> exact absurd ha (by decide)
  | rxBlock n ha => cases n <;> exact absurd ha (by decide)

/-! ### A frame arrives -/

theorem reg_putBytes_inside {a k : Nat} {bs : List Byte} (s : State) (h : k < bs.length) :
    (putBytes a bs s).reg (a + k) = bs[k] := by
  induction bs generalizing a s k with
  | nil => simp at h
  | cons b bs ih =>
    cases k with
    | zero =>
      rw [Nat.add_zero]
      exact (reg_putBytes_outside _ (.inl (Nat.lt_succ_self a))).trans (reg_setReg_self s a b)
    | succ k =>
      rw [show a + (k + 1) = a + 1 + k by omega]
      exact ih (s.setReg a b) (by simpa using h)

/-- A receive buffer whose flag is clear takes the 14 bytes of the block, and its flag is set with them (R38, R58). -/
theorem fillRx_free {n : RxBuf} {block : List Byte} {s : State} (hl : block.length = 14)
    (hf : s.reg intfAddr &&& rxFlag s.cfg n = 0) :
    regsAt (fillRx n block s) (rxBase n) 14 = block ∧
    (fillRx n block s).reg intfAddr = s.reg intfAddr ||| rxFlag s.cfg n := by
  have hfill : fillRx n block s = setFlags (rxFlag s.cfg n) (putBytes (rxBase n) block s) := by
    simp [fillRx, flagSet, hf, List.take_of_length_le (show block.length ≤ blockLen from Nat.le_of_eq hl)]
  have hlt : intfAddr < rxBase n := by cases n <;> decide
  rw [hfill]
  constructor
  · refine List.ext_getElem (by simp [regsAt, hl]) fun k hk hk' => ?_
    simp only [regsAt, List.getElem_map, List.getElem_range, setFlags]
    rw [reg_setReg_other _ _ (by omega), reg_putBytes_inside s hk']
  · rw [setFlags, reg_setReg_self, reg_putBytes_outside s (.inl hlt)]

/-- Settles O51: what an ENV step makes of one register, applied to the volatile ones, the status register and INTF. -/
theorem envStepRespectsVolatile : Obligations.EnvStepRespectsVolatile := by
  intro s e hc
  obtain ⟨m, hm⟩ := intf_envStep e hc
  refine ⟨fun a ha => reg_envStep_of_not_volatile e ha, (envStep_rest s e).1, statusMode_envStep e hc, ?_, ?_, ?_⟩
  · exact (congrArg (fun x => s.reg intfAddr &&& ~~~x) hm).trans (and_not_or_self _ m)
  · rintro block rfl hl hf
    exact fillRx_free (n := .rxb0) hl hf
  · rintro block rfl hl hf
    exact fillRx_free (n := .rxb1) hl hf

end Sys2Proof.Machine
end

section
/-! SUPPORT. What an executed instruction leaves of the block, and the invariant of every step: O30, O52, O53, O2. -/

namespace Sys2Proof.Machine

open Sys2Proof.Safety

/-! ### The block after an instruction (R130) -/

theorem nextVerdict_snd (s : State) : (nextVerdict s).2 = s.setSpi s.spi.tail := by
  unfold nextVerdict
  split
  · rename_i h
    rw [h, List.tail_nil, ← h]
    rfl
  · rename_i h
    rw [h, List.tail_cons]

/-- Settles O30: the exchange changes the target alone, and its end closes the window. -/
theorem execReleasesChipSelect : Obligations.ExecReleasesChipSelect := by
  intro i s t h
  rw [exec_eq_issue] at h
  obtain ⟨-, rx, u, hu, hso, rfl⟩ := issue_next h
  rw [nextVerdict_snd] at hso
  have htrace : ∃ sent rx' : List Byte, sent <+: encode i ∧ rx'.length = sent.length ∧
      u.trace ++ [⟨sentBytes (nextVerdict s).1 (encode i), rx⟩] = s.trace ++ [⟨sent, rx'⟩] :=
    ⟨_, _, sentBytes_prefix _ i, clockBytes_length hu, by rw [hso.trace]; rfl⟩
  unfold concludeIssue
  split
  · exact ⟨rfl, rfl, hso.cfg, hso.constructed, hso.tp, hso.osc, hso.bitrate, hso.host, htrace,
      .inl ⟨hso.needsReinit, hso.job, hso.wire, hso.outcomes⟩⟩
  · exact ⟨rfl, rfl, hso.cfg, hso.constructed, hso.tp, hso.osc, hso.bitrate, hso.host, htrace,
      .inr ⟨Bool.or_true _, rfl, rfl, rfl, by rw [← show u.outcomes = s.outcomes from hso.outcomes]; rfl⟩⟩

/-- After an instruction the command goes on as it was, or it has ended with TransportFailure (R130, R296). -/
theorem exec_end {i : Instr} {s t : State} (h : exec i s = .next t) :
    (t.needsReinit = s.needsReinit ∧ t.job = s.job ∧ t.wire = s.wire ∧ t.outcomes = s.outcomes) ∨
    (t.needsReinit = true ∧ t.job = none ∧ t.wire = none ∧ t.response = [] ∧
      t.outcomes = s.outcomes ++ [.error (.transportFailure i)]) := by
  obtain ⟨-, -, -, -, -, -, -, -, -, hend⟩ := execReleasesChipSelect i s t h
  exact hend

/-- An instruction leaves the timing parameters, their keys and the construction mark (R24, R130). -/
theorem exec_record {i : Instr} {s t : State} (h : exec i s = .next t) :
    t.constructed = s.constructed ∧ t.tp = s.tp ∧ t.osc = s.osc ∧ t.bitrate = s.bitrate := by
  obtain ⟨-, -, -, hcon, htp, hosc, hbr, -⟩ := execReleasesChipSelect i s t h
  exact ⟨hcon, htp, hosc, hbr⟩

/-- The transport hands bytes back only where it has carried the whole transaction, and then all of them (R32). -/
theorem returnedBytes_some {v : Verdict} {rx b : List Byte} (h : returnedBytes v rx = some b) :
    b = rx ∧ ∀ tx, sentBytes v tx = tx := by
  cases v with
  | ok => cases h; exact ⟨rfl, fun _ => rfl⟩
  | fail k => cases h
  | returns k =>
    simp only [returnedBytes] at h
    split at h
    · cases h; exact ⟨rfl, fun _ => rfl⟩
    · cases h

/-- A READ that did not fail has returned as many bytes as it asked for (R32, R99). -/
theorem exec_read_response {a n : Nat} {s t : State} (h : exec (.read a n) s = .next t) (hj : t.job ≠ none) :
    t.response.length = n := by
  rw [exec_eq_issue] at h
  obtain ⟨-, rx, u, hu, -, rfl⟩ := issue_next h
  have hlen := clockBytes_length hu
  cases hr : returnedBytes (nextVerdict s).1 rx with
  | none => simp [concludeIssue, hr] at hj
  | some b =>
    obtain ⟨rfl, hsent⟩ := returnedBytes_some hr
    rw [hsent] at hlen
    simp [concludeIssue, responseOf, hlen, encode]

/-! ### The mode shown in the status register -/

theorem and_modeMask_eq {p : Byte} (h : p &&& 0x1F = 0) : p &&& modeMask = p := by
  have hm : modeMask = ~~~0x1F := by decide
  rw [hm]
  ext i hi
  have hi' : (p &&& 0x1F)[i] = false := by rw [h]; exact BitVec.getElem_zero hi
  rw [BitVec.getElem_and] at hi' ⊢
  rw [BitVec.getElem_not]
  cases hp : p[i] <;> simp_all

theorem keep_or_and_modeMask {x p : Byte} (h : p &&& 0x1F = 0) : ((x &&& ~~~modeMask) ||| p) &&& modeMask = p := by
  have hx : x &&& ~~~modeMask &&& modeMask = 0 := by
    rw [BitVec.and_assoc, show ~~~modeMask &&& modeMask = 0 by decide]
    exact BitVec.and_zero
  calc ((x &&& ~~~modeMask) ||| p) &&& modeMask = (x &&& ~~~modeMask &&& modeMask) ||| (p &&& modeMask) := by
        ext i hi
        simp only [BitVec.getElem_and, BitVec.getElem_or, BitVec.getElem_not, Bool.and_or_distrib_right]
    _ = 0 ||| p := by rw [hx, and_modeMask_eq h]
    _ = p := BitVec.zero_or

theorem modeShown_enterMode {s : State} (m : OperatingMode) (hc : s.cfg.wf = true) : ModeShown (s.enterMode m) := by
  have hreg := reg_enterMode s m s.cfg.statAddr
  rw [if_pos rfl] at hreg
  unfold ModeShown
  rw [enterMode_cfg, hreg, enterMode_mode]
  exact keep_or_and_modeMask (wf_pattern hc m)

theorem modeShown_targetReset {s : State} (hc : s.cfg.wf = true) : ModeShown (targetReset s) := by
  have hp : s.cfg.patPowerUp &&& modeMask = s.cfg.patPowerUp := and_modeMask_eq (wf_pattern hc .powerUp)
  unfold ModeShown
  rw [reg_targetReset, targetReset_cfg, targetReset_mode, powerUpByte, if_pos rfl, hp]
  exact keep_or_and_modeMask (wf_pattern hc .powerUp)

theorem modeShown_setReg {s : State} {a : Nat} (v : Byte) (h : ModeShown s) (ha : a ≠ s.cfg.statAddr) :
    ModeShown (s.setReg a v) := by
  unfold ModeShown
  rw [setReg_cfg, reg_setReg_other s v ha.symm, setReg_mode]
  exact h

theorem modeShown_envStep {s : State} (e : EnvStep) (hc : s.cfg.wf = true) (h : ModeShown s) :
    ModeShown (envStep s e) := by
  unfold ModeShown
  rw [(envStep_sameOutside s e).cfg, statusMode_envStep e hc, (envStep_rest s e).1]
  exact h

/-- What every operation on the target keeps: a legal record, canonical memory, the mode shown (R35, R50). -/
def TargetOk (s : State) : Prop := Canonical s ∧ ModeShown s

/-- A store that is not refused is to another register than the status register, or a mode request (R61, R234). -/
theorem targetOk_store {s t : State} {a : Nat} {v : Byte} (ha : a < regCount) (h : TargetOk s)
    (he : storeReg a v s = .ok t) : TargetOk t := by
  refine ⟨keptByTarget_canonical.store s t a v ha h.1 he, ?_⟩
  obtain ⟨-, -, rfl⟩ | ⟨-, hs, -, rfl | ⟨-, req, -, -, rfl⟩⟩ := storeReg_ok he
  · exact h.2
  · exact modeShown_setReg v h.2 hs
  · exact modeShown_enterMode req h.1.1

theorem targetOk_modify {s t : State} {a : Nat} {m v : Byte} (ha : a < regCount) (h : TargetOk s)
    (he : modifyReg a m v s = .ok t) : TargetOk t := by
  refine ⟨keptByTarget_canonical.modify s t a m v ha h.1 he, ?_⟩
  obtain ⟨-, -, ⟨-, rfl⟩ | ⟨-, rfl⟩⟩ | ⟨-, hs, -, rfl | ⟨-, -, req, -, -, rfl⟩⟩ := modifyReg_ok he
  · exact h.2
  · exact h.2
  · exact modeShown_setReg _ h.2 hs
  · exact modeShown_enterMode req h.1.1

theorem keptByStep_targetOk : KeptByStep TargetOk where
  env _ e h := ⟨canonical_envStep e h.1, modeShown_envStep e h.1.1 h.2⟩
  setEnv _ _ h := h
  setWindow _ _ h := h
  draw _ h := h
  reset _ h := ⟨⟨h.1.1, rfl⟩, modeShown_targetReset h.1.1⟩
  request _ _ h := h
  store _ _ _ _ ha h he := targetOk_store ha h he
  modify _ _ _ _ _ ha h he := targetOk_modify ha h he
  setSpi _ _ h := h
  setHost _ _ h := h
  setWire _ _ h := h
  setJob _ _ h := h
  setResponse _ _ h := h
  openWindow _ h := h
  endTransaction _ _ _ h := h
  deliver _ _ h := h
  raiseError _ _ h := h
  beginInstance _ _ _ _ h := h
  instanceReady _ h := h
  reinitDone _ h := h
  blockPowerUp _ h := h

/-! ### The block's part of the invariant after its move -/

/-- A plain move leaves the parameters and the block's record (R22). -/
theorem PlainMove.record {s t : State} (h : PlainMove s t) : t.cfg = s.cfg ∧ SameInstance s t := by
  cases h with
  | deliver o => exact ⟨rfl, rfl, rfl, rfl, rfl, rfl⟩
  | raise e he => exact ⟨rfl, rfl, rfl, rfl, rfl, by rw [raiseError_needsReinit, he, Bool.or_false]⟩
  | start q f => exact ⟨rfl, rfl, rfl, rfl, rfl, rfl⟩

theorem timingOk_congr {s t : State} (htp : t.tp = s.tp) (hc : t.constructed = s.constructed) (h : TimingOk s) :
    TimingOk t := by
  unfold TimingOk
  rw [htp, hc]
  exact h

theorem timingOk_unset {s : State} (htp : s.tp = none) (hc : s.constructed = false) : TimingOk s := by
  simp [TimingOk, htp, hc]

theorem PlainMove.timingOk {s t : State} (h : PlainMove s t) (ht : TimingOk s) : TimingOk t := by
  obtain ⟨-, hinst⟩ := h.record
  exact timingOk_congr hinst.tp hinst.constructed ht

theorem jobOk_of_none {s : State} (h : s.job = none) : JobOk s := by
  intro j hj
  rw [h] at hj
  cases hj

/-- A command whose last queued instruction is the READ it waits for is in order. -/
theorem jobOk_startJob {s : State} {q : List Instr} {f : Finish} (hq : ∀ i ∈ q, i.wf = true) (ha : QueueAnswers q f)
    (hf : f = .construct → s.tp ≠ none) : JobOk (startJob q f s) := by
  intro j hj
  cases hj
  refine ⟨hq, fun n hn => ?_, hf⟩
  obtain ⟨a, hlast⟩ := ha n hn
  simp only [AnswerComing, hlast]
  exact ⟨a, rfl⟩

theorem PlainMove.jobOk {s t : State} (h : PlainMove s t) (hc : s.cfg.wf = true) : JobOk t := by
  cases h with
  | deliver o => exact jobOk_of_none rfl
  | raise e => exact jobOk_of_none rfl
  | start q f hq ha hf => exact jobOk_startJob (hq hc) ha (fun h => absurd h hf)

/-- The offered instruction is the last that the command waits for, or another one is (R236, R262, R266). -/
theorem jobOk_offer {s : State} {i : Instr} {q : List Instr} {f : Finish} (hj : s.job = some ⟨i :: q, f⟩)
    (h : JobOk s) : JobOk (offer i q f s) := by
  obtain ⟨hwf, hans, hcon⟩ := h _ hj
  intro j hj'
  cases hj'
  refine ⟨fun k hk => hwf k (List.mem_cons_of_mem _ hk), fun n hn => ?_, hcon⟩
  have hlast := hans n hn
  cases q with
  | nil => exact ⟨i, decode_encode (hwf i List.mem_cons_self), hlast⟩
  | cons k q =>
    obtain ⟨z, hz⟩ : ∃ z, (k :: q).getLast? = some z := ⟨_, List.getLast?_cons⟩
    simpa only [AnswerComing, List.getLast?_cons_cons, hz] using hlast

theorem eventMove_timingOk {s t : State} {e : HostEvent} (h : EventMove s e t) (ht : TimingOk s) : TimingOk t := by
  cases h with
  | plain h => exact h.timingOk ht
  | construct hr hp =>
    refine ⟨fun tp htp => ?_, fun hcon => by cases hcon⟩
    cases htp
    exact packCNF_some hp
  | blockPowerUp => exact timingOk_unset rfl rfl
  | targetPowerUp => exact ht

theorem eventMove_jobOk {s t : State} {e : HostEvent} (h : EventMove s e t) (hc : s.cfg.wf = true)
    (hj : s.job = none) : JobOk t := by
  cases h with
  | plain h => exact h.jobOk hc
  | construct hr hp =>
    exact jobOk_startJob (initSequence_wf hc _) (queueAnswers_of_awaits_none rfl _) (fun _ => by simp)
  | blockPowerUp => exact jobOk_of_none rfl
  | targetPowerUp => exact jobOk_of_none hj

theorem finishMove_timingOk {s t : State} {f : Finish} (h : FinishMove s f t) (ht : TimingOk s)
    (hcon : f = .construct → s.tp ≠ none) : TimingOk t := by
  cases h with
  | plain h => exact h.timingOk ht
  | construct => exact ⟨ht.1, fun _ => hcon rfl⟩
  | reinit => exact ht

theorem finishMove_jobOk {s t : State} {f : Finish} (h : FinishMove s f t) (hc : s.cfg.wf = true) : JobOk t := by
  cases h with
  | plain h => exact h.jobOk hc
  | construct => exact jobOk_of_none rfl
  | reinit => exact jobOk_of_none rfl

theorem Moved.timingOk {s t : State} (h : Moved s t) (ht : TimingOk s) (hjob : JobOk s) : TimingOk t := by
  cases h with
  | offer => exact ht
  | finish hj h =>
    obtain ⟨-, -, hcon⟩ := hjob _ hj
    exact finishMove_timingOk h ht hcon
  | event _ _ h => exact eventMove_timingOk h ht
  | wait => exact timingOk_congr (envSlot_sameOutside _).tp (envSlot_sameOutside _).constructed ht

theorem Moved.jobOk {s t : State} (h : Moved s t) (hc : s.cfg.wf = true) (hjob : JobOk s) : JobOk t := by
  cases h with
  | offer hj => exact jobOk_offer hj hjob
  | finish _ h => exact finishMove_jobOk h hc
  | event hj _ h => exact eventMove_jobOk h hc hj
  | wait hj => exact jobOk_of_none ((envSlot_sameOutside _).job.trans hj)

/-- Chip-select is released and no window is open (R33, R36). -/
def Released (s : State) : Prop := s.cs = .released ∧ s.window = none

theorem PlainMove.released {s t : State} (h : PlainMove s t) (hr : Released s) : Released t := by
  cases h with
  | deliver o => exact hr
  | raise e => exact ⟨rfl, rfl⟩
  | start q f => exact hr

theorem Moved.released {s t : State} (h : Moved s t) (hr : Released s) : Released t := by
  cases h with
  | offer => exact hr
  | finish _ h =>
    cases h with
    | plain h => exact h.released hr
    | construct => exact hr
    | reinit => exact hr
  | event _ _ h =>
    cases h with
    | plain h => exact h.released hr
    | construct => exact hr
    | blockPowerUp => exact ⟨rfl, rfl⟩
    | targetPowerUp => exact ⟨hr.1, rfl⟩
  | wait => exact ⟨(envSlot_sameOutside _).cs.trans hr.1, (envSlot_rest _).2.1.trans hr.2⟩

/-! ### The block's part of the invariant after an instruction -/

theorem exec_timingOk {i : Instr} {s t : State} (h : exec i s = .next t) (ht : TimingOk s) : TimingOk t := by
  obtain ⟨hcon, htp, -⟩ := exec_record h
  exact timingOk_congr htp hcon ht

/-- The executed READ has brought the bytes the command waits for, or the READ is still queued. -/
theorem exec_jobOk {tx : List Byte} {i : Instr} {s t : State} (hw : s.wire = some tx) (hd : decode tx = .ok i)
    (h : exec i (s.setWire none) = .next t) (hjob : JobOk s) : JobOk t := by
  obtain ⟨-, htp, -⟩ := exec_record h
  obtain ⟨-, htjob, htwire, -⟩ | ⟨-, htjob, -⟩ := exec_end h
  · intro j hj
    have hsj : s.job = some j := htjob ▸ hj
    obtain ⟨hwf, hans, hcon⟩ := hjob j hsj
    refine ⟨hwf, fun n hn => ?_, fun hf => htp ▸ hcon hf⟩
    have hlast := hans n hn
    unfold AnswerComing at hlast ⊢
    cases hq : j.queue.getLast? with
    | some k => simpa only [hq] using hlast
    | none =>
      simp only [hq, hw, htwire, setWire_wire] at hlast ⊢
      obtain ⟨k, hk, a, rfl⟩ := hlast
      obtain rfl : Instr.read a n = i := Except.ok.inj (hk.symm.trans hd)
      exact exec_read_response h (by simp [hj])
  · exact jobOk_of_none htjob

/-! ### The invariant -/

theorem machineInv_iff {s : State} :
    MachineInv s ↔ TargetOk s ∧ Released s ∧ TimingOk s ∧ JobOk s := by
  constructor
  · rintro ⟨hcfg, hmem, hmode, hcs, hwin, htiming, hjob⟩
    exact ⟨⟨⟨hcfg, hmem⟩, hmode⟩, ⟨hcs, hwin⟩, htiming, hjob⟩
  · rintro ⟨⟨⟨hcfg, hmem⟩, hmode⟩, ⟨hcs, hwin⟩, htiming, hjob⟩
    exact ⟨hcfg, hmem, hmode, hcs, hwin, htiming, hjob⟩

/-- Settles O52: the target's part is kept by every operation; the block's part by an instruction, which changes the
record by its error at most, and by each of the block's moves. -/
theorem stepKeepsInvariant : Obligations.StepKeepsInvariant := by
  intro s t hinv hs
  obtain ⟨htarget, hrel, htiming, hjob⟩ := machineInv_iff.1 hinv
  refine machineInv_iff.2 ⟨step_keeps keptByStep_targetOk htarget hs, ?_⟩
  obtain ⟨tx, i, hw, hd, hexec⟩ | ⟨-, hadv⟩ := step_next hs
  · obtain ⟨hcs, hwin, -⟩ := execReleasesChipSelect i _ t hexec
    exact ⟨⟨hcs, hwin⟩, exec_timingOk hexec htiming, exec_jobOk hw hd hexec hjob⟩
  · have hmoved := advance_moved hadv
    exact ⟨hmoved.released hrel, hmoved.timingOk htiming hjob, hmoved.jobOk htarget.1.1 hjob⟩

/-- Settles O2: reset's memory is empty, so the status register holds its power-up byte, and the block is idle. -/
theorem resetMeetsInvariant : Obligations.ResetMeetsInvariant := by
  have hc : State.reset.cfg.wf = true := by decide
  refine machineInv_iff.2 ⟨⟨⟨hc, rfl⟩, ?_⟩, ⟨rfl, rfl⟩, timingOk_unset rfl rfl, jobOk_of_none rfl⟩
  exact modeShown_targetReset (s := State.reset) hc

/-! ### No fault -/

theorem exec_no_fault (i : Instr) (s : State) (f : Fault) : exec i s ≠ .fault f := by
  rw [exec_eq_issue]
  unfold issue
  split
  · simp
  · simp only
    split
    · simp
    · split <;> simp

theorem headerOf_none {b : List Byte} (h : headerOf b = none) : b.length ≠ 6 := by
  rintro hl
  match b, hl with
  | [_, _, _, _, _, _], _ => cases h

/-- Only the number of bytes at hand can stop the end of a command. -/
theorem finishJob_fault {f : Finish} {r : List Byte} {s : State} {e : Fault} (h : finishJob f r s = .fault e) :
    ∃ n, awaits f = some n ∧ r.length ≠ n := by
  cases f with
  | status =>
    refine ⟨1, rfl, fun hl => ?_⟩
    obtain ⟨b, rfl⟩ := List.length_eq_one_iff.1 hl
    cases h
  | pollFlags =>
    refine ⟨1, rfl, fun hl => ?_⟩
    obtain ⟨b, rfl⟩ := List.length_eq_one_iff.1 hl
    cases h
  | header n clear =>
    simp only [finishJob] at h
    split at h
    · cases h
    · exact ⟨6, rfl, headerOf_none ‹_›⟩
  | _ => cases h

/-- Only `reinit` on a constructed block without timing parameters can stop an event (R40). -/
theorem acceptEvent_fault {e : HostEvent} {s : State} {f : Fault} (h : acceptEvent e s = .fault f) :
    s.constructed = true ∧ s.tp = none := by
  cases e with
  | command c =>
    simp only [acceptEvent, acceptCommand] at h
    split at h
    · rename_i hgate
      cases c with
      | reinit =>
        refine ⟨by simpa [runsUnconstructed] using hgate, ?_⟩
        simp only [acceptOpen, acceptReinit] at h
        split at h
        · assumption
        · split at h <;> cases h
      | _ => cases h
    · cases h
  | blockPowerUp => cases h
  | targetPowerUp => cases h

theorem advance_no_fault {s : State} (hw : s.wire = none) (ht : TimingOk s) (hjob : JobOk s) (f : Fault) :
    advance s ≠ .fault f := by
  intro h
  match hj : s.job, hh : s.host with
  | some ⟨i :: q, g⟩, _ => rw [advance_offer hj] at h; cases h
  | some ⟨[], g⟩, _ =>
    rw [advance_finish hj] at h
    obtain ⟨n, hn, hlen⟩ := finishJob_fault h
    obtain ⟨-, hans, -⟩ := hjob _ hj
    have hcame := hans n hn
    simp only [AnswerComing, List.getLast?_nil, hw] at hcame
    exact hlen hcame
  | none, e :: es =>
    rw [advance_event hj hh] at h
    obtain ⟨hcon, htp⟩ := acceptEvent_fault h
    exact ht.2 hcon htp
  | none, [] => rw [advance_wait hj hh] at h; cases h

/-- Settles O53: an instruction never ends in a fault, and the invariant excludes the two cases in which the block's
move would. -/
theorem noFaultUnderInvariant : Obligations.NoFaultUnderInvariant := by
  intro s f hinv
  unfold step
  split
  · split
    · exact exec_no_fault _ _ f
    · simp
  · exact advance_no_fault ‹_› hinv.timing hinv.job f

end Sys2Proof.Machine
end

section
/-! SUPPORT. What a step writes of the block's record and keeps of an exchange: O56, O59, O60. -/

namespace Sys2Proof.Machine

open Sys2Proof.Safety

/-! ### Who writes the block's record -/

/-- What the block's move may do to its record (R22 to R26): nothing, or one of the four writers. -/
inductive RecordChange (s t : State) : Prop
  | same (h : SameInstance s t)
  | powerUp {es : List HostEvent} (hj : s.job = none) (hh : s.host = .blockPowerUp :: es) (htp : t.tp = none)
      (hosc : t.osc = none) (hbr : t.bitrate = none) (hcon : t.constructed = false) (hre : t.needsReinit = false)
  | begun {es : List HostEvent} {osc br : Nat} {tp : TimingParameters} (hj : s.job = none)
      (hh : s.host = .command (.construct osc br) :: es) (hr : resolve s.cfg.timingTable osc br = some tp)
      (htp : t.tp = some tp) (hosc : t.osc = some osc) (hbr : t.bitrate = some br) (hcon : t.constructed = false)
      (hre : t.needsReinit = s.needsReinit)
  | constructed (hj : s.job = some ⟨[], .construct⟩) (htp : t.tp = s.tp) (hosc : t.osc = s.osc)
      (hbr : t.bitrate = s.bitrate) (hre : t.needsReinit = false)
  | reinit (hj : s.job = some ⟨[], .reinit⟩) (htp : t.tp = s.tp) (hosc : t.osc = s.osc) (hbr : t.bitrate = s.bitrate)
      (hcon : t.constructed = s.constructed) (hre : t.needsReinit = false)

theorem sameInstance_trans {s u t : State} (hu : SameInstance s u) (h : SameInstance u t) : SameInstance s t :=
  ⟨h.constructed.trans hu.constructed, h.tp.trans hu.tp, h.osc.trans hu.osc, h.bitrate.trans hu.bitrate,
    h.needsReinit.trans hu.needsReinit⟩

theorem sameInstance_setResponse (r : List Byte) (s : State) : SameInstance s (s.setResponse r) :=
  ⟨rfl, rfl, rfl, rfl, rfl⟩

theorem sameInstance_setHost (es : List HostEvent) (s : State) : SameInstance s (s.setHost es) :=
  ⟨rfl, rfl, rfl, rfl, rfl⟩

theorem SameOutside.sameInstance {s t : State} (h : SameOutside s t) : SameInstance s t :=
  ⟨h.constructed, h.tp, h.osc, h.bitrate, h.needsReinit⟩

theorem Moved.recordChange {s t : State} (h : Moved s t) : RecordChange s t := by
  cases h with
  | offer => exact .same ⟨rfl, rfl, rfl, rfl, rfl⟩
  | finish hj h =>
    cases h with
    | plain h => exact .same (sameInstance_trans (sameInstance_setResponse _ s) h.record.2)
    | construct => exact .constructed hj rfl rfl rfl rfl
    | reinit => exact .reinit hj rfl rfl rfl rfl rfl
  | @event e es _ hj hh h =>
    cases h with
    | plain h =>
      have hs := sameInstance_trans (sameInstance_setResponse [] s) (sameInstance_setHost es _)
      exact .same (sameInstance_trans hs h.record.2)
    | construct hr => exact .begun hj hh hr rfl rfl rfl rfl rfl
    | blockPowerUp => exact .powerUp hj hh rfl rfl rfl rfl rfl
    | targetPowerUp => exact .same ⟨rfl, rfl, rfl, rfl, rfl⟩
  | wait => exact .same (sameInstance_trans (sameInstance_setResponse _ s) (envSlot_sameOutside _).sameInstance)

/-- The timing parameters and their keys are written by block power-up and by an accepted `construct` (R24, R25). -/
theorem RecordChange.timing {s t : State} (h : RecordChange s t)
    (hne : t.tp ≠ s.tp ∨ t.osc ≠ s.osc ∨ t.bitrate ≠ s.bitrate) :
    s.job = none ∧ ((∃ es, s.host = .blockPowerUp :: es ∧ t.tp = none ∧ t.osc = none ∧ t.bitrate = none) ∨
      (∃ es osc br tp, s.host = .command (.construct osc br) :: es ∧ resolve s.cfg.timingTable osc br = some tp ∧
        t.tp = some tp ∧ t.osc = some osc ∧ t.bitrate = some br ∧ t.constructed = false)) := by
  cases h with
  | same h => simp [h.tp, h.osc, h.bitrate] at hne
  | powerUp hj hh htp hosc hbr => exact ⟨hj, .inl ⟨_, hh, htp, hosc, hbr⟩⟩
  | begun hj hh hr htp hosc hbr hcon => exact ⟨hj, .inr ⟨_, _, _, _, hh, hr, htp, hosc, hbr, hcon⟩⟩
  | constructed hj htp hosc hbr => simp [htp, hosc, hbr] at hne
  | reinit hj htp hosc hbr => simp [htp, hosc, hbr] at hne

/-- Only the end of `construct` marks the block constructed (R23). -/
theorem RecordChange.constructed_set {s t : State} (h : RecordChange s t) (hs : s.constructed = false)
    (ht : t.constructed = true) : s.job = some ⟨[], .construct⟩ := by
  cases h with
  | same h => simp [h.constructed, hs] at ht
  | powerUp _ _ _ _ _ hcon => simp [hcon] at ht
  | begun _ _ _ _ _ _ hcon => simp [hcon] at ht
  | constructed hj => exact hj
  | reinit _ _ _ _ hcon => simp [hcon, hs] at ht

theorem RecordChange.needsReinit_cleared {s t : State} (h : RecordChange s t) (hs : s.needsReinit = true)
    (ht : t.needsReinit = false) :
    s.job = some ⟨[], .construct⟩ ∨ s.job = some ⟨[], .reinit⟩ ∨
      ∃ es, s.job = none ∧ s.host = .blockPowerUp :: es := by
  cases h with
  | same h => simp [h.needsReinit, hs] at ht
  | powerUp hj hh => exact .inr (.inr ⟨_, hj, hh⟩)
  | begun _ _ _ _ _ _ _ hre => simp [hre, hs] at ht
  | constructed hj => exact .inl hj
  | reinit hj => exact .inr (.inl hj)

/-- The block's own move never asks for re-initialization (R26, R296). -/
theorem RecordChange.needsReinit_kept {s t : State} (h : RecordChange s t) (hs : s.needsReinit = false) :
    t.needsReinit = false := by
  cases h with
  | same h => exact h.needsReinit.trans hs
  | powerUp _ _ _ _ _ _ hre => exact hre
  | begun _ _ _ _ _ _ _ hre => exact hre.trans hs
  | constructed _ _ _ _ hre => exact hre
  | reinit _ _ _ _ _ hre => exact hre

/-- Settles O56: an instruction changes the record by its error alone; the block's move by one of four writers. -/
theorem blockRecordWriters : Obligations.BlockRecordWriters := by
  intro s t hs
  obtain ⟨tx, i, hw, -, hexec⟩ | ⟨hw, hadv⟩ := step_next hs
  · obtain ⟨hcon, htp, hosc, hbr⟩ := exec_record hexec
    refine ⟨fun hne => ?_, fun h0 h1 => ?_, fun h0 h1 => ?_, fun h0 h1 => ?_⟩
    · simp [htp, hosc, hbr] at hne
    · simp [hcon, h0] at h1
    · obtain ⟨hre, -⟩ | ⟨-, -, -, -, hout⟩ := exec_end hexec
      · simp [hre, h0] at h1
      · exact ⟨i, by simp [hw], hout⟩
    · obtain ⟨hre, -⟩ | ⟨hre, -⟩ := exec_end hexec
      · simp [hre, h0] at h1
      · simp [hre] at h1
  · have hrec := (advance_moved hadv).recordChange
    refine ⟨fun hne => ?_, fun h0 h1 => ⟨hw, hrec.constructed_set h0 h1⟩, fun h0 h1 => ?_,
      fun h0 h1 => ⟨hw, hrec.needsReinit_cleared h0 h1⟩⟩
    · obtain ⟨hj, hwriter⟩ := hrec.timing hne
      exact ⟨⟨hj, hw⟩, hwriter⟩
    · simp [hrec.needsReinit_kept h0] at h1

/-! ### What is kept of an exchange -/

/-- After the block's move nothing returned is held, and a command that is over has nothing offered (R22, R28). -/
structure NothingHeld (s t : State) : Prop where
  response : t.response = []
  wire : t.job = none → t.wire = none
  outcome : t.outcomes ≠ s.outcomes → t.job = none

theorem PlainMove.nothingHeld {s t : State} (h : PlainMove s t) (hw : s.wire = none) (hr : s.response = []) :
    NothingHeld s t := by
  cases h with
  | deliver o => exact ⟨rfl, fun _ => hw, fun _ => rfl⟩
  | raise e => exact ⟨rfl, fun _ => rfl, fun _ => rfl⟩
  | start q f => exact ⟨hr, fun _ => hw, fun hne => absurd rfl hne⟩

theorem FinishMove.nothingHeld {s t : State} {f : Finish} (h : FinishMove s f t) (hw : s.wire = none)
    (hr : s.response = []) : NothingHeld s t := by
  cases h with
  | plain h => exact h.nothingHeld hw hr
  | construct => exact ⟨rfl, fun _ => hw, fun _ => rfl⟩
  | reinit => exact ⟨rfl, fun _ => hw, fun _ => rfl⟩

theorem EventMove.nothingHeld {s t : State} {e : HostEvent} (h : EventMove s e t) (hw : s.wire = none)
    (hr : s.response = []) : NothingHeld s t := by
  cases h with
  | plain h => exact h.nothingHeld hw hr
  | construct => exact ⟨hr, fun _ => hw, fun hne => absurd rfl hne⟩
  | blockPowerUp => exact ⟨rfl, fun _ => rfl, fun _ => rfl⟩
  | targetPowerUp => exact ⟨hr, fun _ => hw, fun hne => absurd rfl hne⟩

theorem Moved.nothingHeld {s t : State} (h : Moved s t) (hw : s.wire = none) : NothingHeld s t := by
  cases h with
  | offer => exact ⟨rfl, nofun, fun hne => absurd rfl hne⟩
  | finish _ h =>
    obtain ⟨hr, hwire, hout⟩ := h.nothingHeld hw rfl
    exact ⟨hr, hwire, hout⟩
  | event _ _ h =>
    obtain ⟨hr, hwire, hout⟩ := h.nothingHeld hw rfl
    exact ⟨hr, hwire, hout⟩
  | wait hj =>
    have hso := envSlot_sameOutside (s.setResponse [])
    exact ⟨hso.response, fun _ => hso.wire.trans hw, fun hne => absurd hso.outcomes hne⟩

/-- Settles O59: the block's move holds nothing returned, and an instruction that ends a command leaves nothing. -/
theorem exchangeNotKept : Obligations.ExchangeNotKept := by
  intro s t hs
  obtain ⟨tx, i, hw, -, hexec⟩ | ⟨hw, hadv⟩ := step_next hs
  · have hend := exec_end hexec
    refine ⟨fun hw' => by simp [hw] at hw', fun _ => ?_, fun hne => ?_⟩
    · obtain ⟨-, -, hwire, -⟩ | ⟨-, -, hwire, -⟩ := hend <;> exact hwire
    · obtain ⟨-, -, -, hout⟩ | ⟨-, hjob, hwire, hresp, -⟩ := hend
      · exact absurd hout hne
      · exact ⟨⟨hjob, hwire⟩, hresp⟩
  · obtain ⟨hresp, hwire, hout⟩ := (advance_moved hadv).nothingHeld hw
    exact ⟨fun _ => hresp, fun hne => absurd hw hne, fun hne => ⟨⟨hout hne, hwire (hout hne)⟩, hresp⟩⟩

/-- An instruction that leaves no command in progress has ended it with an error, or there was none before. -/
theorem exec_nothingKept {tx : List Byte} {i : Instr} {s t : State} (hw : s.wire = some tx) (hk : NothingKept s)
    (h : exec i (s.setWire none) = .next t) : NothingKept t := by
  intro hj
  obtain ⟨-, hjob, -⟩ | ⟨-, -, hwire, hresp, -⟩ := exec_end h
  · obtain ⟨hnone, -⟩ := hk (hjob.symm.trans hj)
    rw [hw] at hnone
    cases hnone
  · exact ⟨hwire, hresp⟩

/-- Settles O60: reset holds nothing, the block's move holds nothing returned, an instruction keeps the command. -/
theorem nothingKeptBetweenCommands : Obligations.NothingKeptBetweenCommands := by
  refine ⟨fun _ => ⟨rfl, rfl⟩, fun s t hk hs => ?_⟩
  obtain ⟨tx, i, hw, -, hexec⟩ | ⟨hw, hadv⟩ := step_next hs
  · exact exec_nothingKept hw hk hexec
  · obtain ⟨hresp, hwire, -⟩ := (advance_moved hadv).nothingHeld hw
    exact fun hj => ⟨hwire hj, hresp⟩

end Sys2Proof.Machine
end

section
/-! SUPPORT. The host port: a presented command is accepted in one step, and a raw command runs its one instruction
(O13, O15, O16, O12); reset (O1); the exchange of another length (O29). -/

namespace Sys2Proof.Machine

open Sys2Proof.Safety

/-! ### A presented command -/

/-- The state in which the idle block accepts a command: the event taken, nothing of an exchange held. -/
def taking (es : List HostEvent) (s : State) : State := (s.setResponse []).setHost es

@[simp] theorem taking_cfg (es : List HostEvent) (s : State) : (taking es s).cfg = s.cfg := rfl

theorem step_presents {c : Command} {es : List HostEvent} {s : State} (h : Presents c es s) :
    step s = acceptCommand c (taking es s) := by
  obtain ⟨⟨hj, hw⟩, hh⟩ := h
  simp only [step, hw, advance_event hj hh, acceptEvent, taking]

theorem acceptCommand_open {c : Command} {s : State} (h : s.constructed = true ∨ runsUnconstructed c = true) :
    acceptCommand c s = acceptOpen c s := by
  unfold acceptCommand
  rw [if_pos (by simpa using h)]

/-- An outcome delivered by an idle block adds the outcome and nothing else. -/
theorem deliver_idle {s : State} (o : CmdOutcome) (hj : s.job = none) :
    deliver o s = { s with response := [], outcomes := s.outcomes ++ [o] } := by
  rw [deliver, ← hj]

/-- So does an error that is not the transport's (R296). -/
theorem raiseError_idle {s : State} {e : CmdError} (hi : Idle s) (hcs : s.cs = .released) (hwin : s.window = none)
    (he : e.needsReinit = false) :
    raiseError e s = { s with response := [], outcomes := s.outcomes ++ [.error e] } := by
  obtain ⟨hj, hw⟩ := hi
  unfold raiseError
  rw [he, Bool.or_false]
  cases s
  simp_all

/-- Settles O13: the gate of R23 comes before the command's own checks. -/
theorem hostGate : Obligations.HostGate := by
  intro s c es hp hcon hconstruct hresolve hpack hdecode hencode
  have hgate : runsUnconstructed c = false := by
    cases c with
    | construct osc br => exact absurd rfl (hconstruct osc br)
    | resolve osc br => exact absurd rfl (hresolve osc br)
    | packCNF tp => exact absurd rfl (hpack tp)
    | decodeHeader h => exact absurd rfl (hdecode h)
    | encodeFrame f => exact absurd rfl (hencode f)
    | _ => rfl
  have hclosed : ¬ ((taking es s).constructed || runsUnconstructed c) = true := by simp [taking, hcon, hgate]
  rw [step_presents hp, acceptCommand, if_neg hclosed, refuseCommand,
    deliver_idle _ (show (taking es s).job = none from hp.1.1)]
  rfl

/-! ### The pure functions -/

section Pure

variable {s : State} {es : List HostEvent}

/-- An idle block that takes a pure function's command and delivers its outcome. -/
theorem step_delivers {c : Command} {o : CmdOutcome} (hp : Presents c es s) (hc : runsUnconstructed c = true)
    (ho : acceptOpen c (taking es s) = .next (deliver o (taking es s))) :
    step s = .next { s with host := es, response := [], outcomes := s.outcomes ++ [o] } := by
  rw [step_presents hp, acceptCommand_open (.inr hc), ho, deliver_idle o (show (taking es s).job = none from hp.1.1)]
  rfl

theorem step_raises {c : Command} {e : CmdError} (hp : Presents c es s) (hc : runsUnconstructed c = true)
    (hcs : s.cs = .released) (hwin : s.window = none) (he : e.needsReinit = false)
    (ho : acceptOpen c (taking es s) = .next (raiseError e (taking es s))) :
    step s = .next { s with host := es, response := [], outcomes := s.outcomes ++ [.error e] } := by
  rw [step_presents hp, acceptCommand_open (.inr hc), ho,
    raiseError_idle (s := taking es s) ⟨hp.1.1, hp.1.2⟩ hcs hwin he]
  rfl

end Pure

/-- Settles O15: a pure function's command delivers its answer, or raises an error that leaves an idle block as it is. -/
theorem pureFunctionsAnswer : Obligations.PureFunctionsAnswer := by
  intro s c es hp hcs hwin
  refine ⟨?_, ?_, ?_, ?_⟩
  · rintro osc br rfl
    cases hr : resolve s.cfg.timingTable osc br with
    | none => exact step_raises hp rfl hcs hwin rfl (by simp only [acceptOpen, acceptResolve, taking_cfg, hr])
    | some tp => exact step_delivers hp rfl (by simp only [acceptOpen, acceptResolve, taking_cfg, hr])
  · rintro tp rfl htp
    exact step_delivers hp rfl (by simp only [acceptOpen, acceptPackCNF, packCNF, htp, if_true])
  · rintro h rfl
    cases hd : decodeHeader s.cfg h with
    | error e =>
      exact step_raises hp rfl hcs hwin (decodeHeader_error hd)
        (by simp only [acceptOpen, acceptDecodeHeader, taking_cfg, hd])
    | ok r => exact step_delivers hp rfl (by simp only [acceptOpen, acceptDecodeHeader, taking_cfg, hd])
  · rintro f h p rfl hf
    exact step_delivers hp rfl (by simp only [acceptOpen, acceptEncodeFrame, taking_cfg, hf])

/-! ### A raw command -/

theorem step_offer {i : Instr} {q : List Instr} {f : Finish} {s : State} (hw : s.wire = none)
    (hj : s.job = some ⟨i :: q, f⟩) : step s = .next (offer i q f s) := by
  simp only [step, hw, advance_offer hj]

theorem step_finish {f : Finish} {s : State} (hw : s.wire = none) (hj : s.job = some ⟨[], f⟩) :
    step s = finishJob f s.response (s.setResponse []) := by
  simp only [step, hw, advance_finish hj]

/-- The step after an instruction was offered executes it. -/
theorem step_offered {i : Instr} {s : State} (hi : i.wf = true) (hw : s.wire = some (encode i)) :
    step s = exec i (s.setWire none) := by
  simp only [step, hw, decode_encode hi]

/-- Settles O12: the block's move with an instruction queued. -/
theorem blockOffersInstruction : Obligations.BlockOffersInstruction :=
  fun _ _ _ _ hw hj => step_offer hw hj

/-- How a raw command ends: with a READ's bytes, with nothing after another instruction. -/
def rawFinish : Instr → Finish
  | .read _ _ => .bytes
  | _ => .unit

/-- The command forms of one wire instruction (R132, R134, R137, R140, R143). -/
inductive RawForm : Command → Instr → Prop
  | reset : RawForm .reset .reset
  | read (a n : Nat) : RawForm (.readRegisters a n) (.read a n)
  | write (a : Nat) (d : List Byte) : RawForm (.writeRegister a d) (.write a d)
  | bitmod (a : Nat) (m v : Byte) : RawForm (.modifyRegister a m v) (.bitmod a m v)
  | rts0 : RawForm (.rts (.buffer 0)) .rtsTxb0
  | rts1 : RawForm (.rts (.buffer 1)) .rtsTxb1
  | rts2 : RawForm (.rts (.buffer 2)) .rtsTxb2
  | rtsAll : RawForm (.rts .all) .rtsAll

theorem acceptWire_wf {i : Instr} (hi : i.wf = true) (f : Finish) (s : State) :
    acceptWire i f s = startJob [i] f s := by
  simp only [acceptWire, (operandCheck_none i).2 hi]

theorem acceptOpen_raw {c : Command} {i : Instr} (h : RawForm c i) (hi : i.wf = true) (s : State) :
    acceptOpen c s = .next (startJob [i] (rawFinish i) s) := by
  cases h with
  | read a n => exact congrArg _ (acceptWire_wf hi _ s)
  | write a d => exact congrArg _ (acceptWire_wf hi _ s)
  | bitmod a m v => exact congrArg _ (acceptWire_wf hi _ s)
  | _ => rfl

/-- What a raw command answers with when its instruction has returned `r` (R31). -/
def rawResult (i : Instr) (r : List Byte) : CmdResult :=
  match i with
  | .read _ _ => .bytes r
  | _ => .unit

theorem finishJob_raw (i : Instr) (r : List Byte) (s : State) :
    finishJob (rawFinish i) r s = .next (deliver (.ok (rawResult i r)) s) := by
  cases i <;> rfl

/-- The idle block that has taken a raw command and offered its instruction. -/
def rawOffered (i : Instr) (es : List HostEvent) (s : State) : State :=
  { s with host := es, wire := some (encode i), job := some ⟨[], rawFinish i⟩, response := [] }

theorem offer_startJob (i : Instr) (es : List HostEvent) (s : State) :
    offer i [] (rawFinish i) (startJob [i] (rawFinish i) (taking es s)) = rawOffered i es s := by
  cases s; rfl

/-- Two steps of a raw command: it is accepted, and its instruction is offered. -/
theorem raw_offered {c : Command} {i : Instr} {es : List HostEvent} {s : State} (h : RawForm c i)
    (hp : Presents c es s) (hcon : s.constructed = true) (hi : i.wf = true) : Runs 2 s (rawOffered i es s) := by
  have haccept : step s = .next (startJob [i] (rawFinish i) (taking es s)) := by
    rw [step_presents hp, acceptCommand_open (.inl (show (taking es s).constructed = true from hcon)),
      acceptOpen_raw h hi]
  have hoffer := step_offer (s := startJob [i] (rawFinish i) (taking es s)) hp.1.2 rfl
  rw [offer_startJob] at hoffer
  exact runs_succ haccept (runs_one hoffer)

/-- Two more: the instruction is executed, and unless it failed the command is answered. -/
theorem raw_answered {i : Instr} {s t : State} (hi : i.wf = true) (hw : s.wire = some (encode i))
    (hj : s.job = some ⟨[], rawFinish i⟩) (ht : exec i (s.setWire none) = .next t) (hjob : t.job ≠ none) :
    Runs 2 s (deliver (.ok (rawResult i t.response)) (t.setResponse [])) := by
  have hexec : step s = .next t := (step_offered hi hw).trans ht
  obtain ⟨-, htjob, htwire, -⟩ | ⟨-, hnone, -⟩ := exec_end ht
  · have hfinish := step_finish htwire (htjob.trans hj)
    rw [finishJob_raw] at hfinish
    exact runs_succ hexec (runs_one hfinish)
  · exact absurd hnone hjob

/-- Settles O16: accepted and offered, then executed and answered with what the instruction returned. -/
theorem rawCommandIssuesOne : Obligations.RawCommandIssuesOne := by
  intro s c i es hp hcon hi hform
  have hraw : RawForm c i := by
    obtain ⟨rfl, rfl⟩ | ⟨a, n, rfl, rfl⟩ | ⟨a, d, rfl, rfl⟩ | ⟨a, m, v, rfl, rfl⟩ | ⟨rfl, rfl⟩ | ⟨rfl, rfl⟩ |
      ⟨rfl, rfl⟩ | ⟨rfl, rfl⟩ := hform <;> constructor
  have hoffered := raw_offered hraw hp hcon hi
  refine ⟨rawFinish i, hoffered, fun t ht hjob => ?_⟩
  have hrun := runs_add hoffered (raw_answered (s := rawOffered i es s) hi rfl rfl ht hjob)
  cases i <;> exact hrun

/-! ### Reset -/

/-- Settles O1: every field by definition; the status register holds its image under PowerUp's mode bits. -/
theorem resetState : Obligations.ResetState := by
  refine ⟨rfl, rfl, rfl, rfl, rfl, rfl, rfl, ⟨rfl, rfl⟩, rfl, rfl, rfl, rfl, fun a ha => ?_, ?_⟩
  · exact if_neg ha
  · show powerUpByte defaultCfg defaultCfg.statAddr = _
    rw [powerUpByte, if_pos rfl, show ~~~modeMask = 0x1F by decide,
      show defaultCfg.patPowerUp &&& modeMask = defaultCfg.patPowerUp by decide]
    rfl

/-! ### A response of another length -/

/-- Settles O29: the whole transaction has had its effect, and what comes back is TransportFailure (R293). -/
theorem wrongLengthIsFailure : Obligations.WrongLengthIsFailure := by
  intro i s u n vs henv hspi hi hn hu
  have hv : nextVerdict s = (.returns n, s.setSpi vs) := by simp only [nextVerdict, hspi]
  obtain ⟨rx, w, d, hlen, -, hissue⟩ := issue_quiet hi henv
  simp only [hv, receivedCount, Nat.min_self] at hlen hissue
  rw [whole_prefix i _ _ (Nat.le_refl _), hu] at hissue
  have hret : returnedBytes (.returns n) rx = none := if_neg (by rw [hlen]; exact hn)
  simp only [hret, concludeIssue] at hissue
  have hso := (wholeEffect_sameOutside hu).1
  refine ⟨_, (exec_eq_issue i s).trans hissue, ⟨fun _ => rfl, rfl, rfl, rfl⟩, rfl, rfl, Bool.or_true _, rfl, rfl, ?_,
    rfl, hso.constructed, hso.tp⟩
  rw [← show u.outcomes = s.outcomes from hso.outcomes]
  rfl

end Sys2Proof.Machine
end

section
/-! SUPPORT. What an exchange and the block's move do to the mode and to the receive flags: O54, O57. -/

namespace Sys2Proof.Machine

open Sys2Proof.Safety

/-! ### The target after the block's own move -/

/-- The block's move leaves the target, or it was a target power-up, or ENV had its slot (R7, R340). -/
inductive TargetMove (s t : State) : Prop
  | same (hcfg : t.cfg = s.cfg) (hmem : t.mem = s.mem) (hmode : t.mode = s.mode)
  | powerUp {es : List HostEvent} (hj : s.job = none) (hh : s.host = .targetPowerUp :: es) (hmode : t.mode = .powerUp)
  | env (h : t = envSlot (s.setResponse []))

theorem PlainMove.target {s t : State} (h : PlainMove s t) : t.cfg = s.cfg ∧ t.mem = s.mem ∧ t.mode = s.mode := by
  cases h <;> exact ⟨rfl, rfl, rfl⟩

theorem Moved.target {s t : State} (h : Moved s t) : TargetMove s t := by
  cases h with
  | offer => exact .same rfl rfl rfl
  | finish _ h =>
    cases h with
    | plain h => obtain ⟨hcfg, hmem, hmode⟩ := h.target; exact .same hcfg hmem hmode
    | construct => exact .same rfl rfl rfl
    | reinit => exact .same rfl rfl rfl
  | event hj hh h =>
    cases h with
    | plain h => obtain ⟨hcfg, hmem, hmode⟩ := h.target; exact .same hcfg hmem hmode
    | construct => exact .same rfl rfl rfl
    | blockPowerUp => exact .same rfl rfl rfl
    | targetPowerUp => exact .powerUp hj hh rfl
  | wait => exact .env rfl

/-! ### One store: the mode, and another register -/

theorem modeOf_some {c : Cfg} {p : Byte} {m : OperatingMode} (h : modeOf c p = some m) : modePattern c m = p := by
  unfold modeOf at h
  split_ifs at h <;> cases h <;> exact Eq.symm ‹_›

/-- The mode field a BITMOD leaves is that of the byte it leaves (R141, R234). -/
theorem modeFieldAfter_eq (old mask value : Byte) :
    modeFieldAfter old mask value = bitModify old mask value &&& modeMask := by
  unfold modeFieldAfter
  split
  · rename_i h
    ext i hi
    have hi' : (mask &&& modeMask)[i] = modeMask[i] := by rw [h]
    simp only [bitModify, BitVec.getElem_and, BitVec.getElem_or, BitVec.getElem_not] at hi' ⊢
    cases hm : mask[i] <;> simp_all
  · rfl

/-- A granted mode request over a stored byte: the mode and the control register agree (R234). -/
theorem enterMode_granted {s : State} {v p : Byte} {req : OperatingMode} (hc : s.cfg.wf = true)
    (hreq : modeOf s.cfg p = some req) (hv : v &&& modeMask = p) :
    ((s.setReg s.cfg.ctrlAddr v).enterMode req).reg s.cfg.ctrlAddr &&& modeMask = modePattern s.cfg req := by
  rw [reg_enterMode, setReg_cfg, if_neg (wf_spare hc).1, reg_setReg_self, hv, modeOf_some hreq]

/-- A store changes the mode by a granted request alone (R234, R235). -/
theorem storeReg_mode {a : Nat} {v : Byte} {s t : State} (hc : s.cfg.wf = true) (h : storeReg a v s = .ok t) :
    t.mode = s.mode ∨ (a = s.cfg.ctrlAddr ∧ modeGrant s.cfg s.mode t.mode = true ∧
      t.reg s.cfg.ctrlAddr &&& modeMask = modePattern s.cfg t.mode) := by
  obtain ⟨-, -, rfl⟩ | ⟨-, -, -, rfl | ⟨rfl, req, hreq, hg, rfl⟩⟩ := storeReg_ok h
  · exact .inl rfl
  · exact .inl rfl
  · exact .inr ⟨rfl, hg, enterMode_granted hc hreq rfl⟩

theorem modifyReg_mode {a : Nat} {m v : Byte} {s t : State} (hc : s.cfg.wf = true) (h : modifyReg a m v s = .ok t) :
    t.mode = s.mode ∨ ((a = s.cfg.ctrlAddr ∧ m &&& modeMask ≠ 0) ∧ modeGrant s.cfg s.mode t.mode = true ∧
      t.reg s.cfg.ctrlAddr &&& modeMask = modePattern s.cfg t.mode) := by
  obtain ⟨-, -, ⟨-, rfl⟩ | ⟨-, rfl⟩⟩ | ⟨-, -, -, rfl | ⟨rfl, hm, req, hreq, hg, rfl⟩⟩ := modifyReg_ok h
  · exact .inl rfl
  · exact .inl rfl
  · exact .inl rfl
  · exact .inr ⟨⟨rfl, hm⟩, hg, enterMode_granted hc hreq (modeFieldAfter_eq _ _ _).symm⟩

/-- A mode that is entered shows in the status register alone. -/
theorem reg_enterMode_other {s : State} {m : OperatingMode} {x : Nat} (hs : x ≠ s.cfg.statAddr) :
    (s.enterMode m).reg x = s.reg x := by
  rw [reg_enterMode, if_neg hs]

/-- A store leaves every other register but the status register. -/
theorem storeReg_reg_other {a x : Nat} {v : Byte} {s t : State} (h : storeReg a v s = .ok t) (hx : x ≠ a)
    (hs : x ≠ s.cfg.statAddr) : t.reg x = s.reg x := by
  obtain ⟨-, -, rfl⟩ | ⟨-, -, -, rfl | ⟨-, req, -, -, rfl⟩⟩ := storeReg_ok h
  · rfl
  · exact reg_setReg_other s v hx
  · exact (reg_enterMode_other (s := s.setReg a v) hs).trans (reg_setReg_other s v hx)

theorem modifyReg_reg_other {a x : Nat} {m v : Byte} {s t : State} (h : modifyReg a m v s = .ok t) (hx : x ≠ a)
    (hs : x ≠ s.cfg.statAddr) : t.reg x = s.reg x := by
  obtain ⟨-, -, ⟨-, rfl⟩ | ⟨-, rfl⟩⟩ | ⟨-, -, -, rfl | ⟨-, -, req, -, -, rfl⟩⟩ := modifyReg_ok h
  · rfl
  · rfl
  · exact reg_setReg_other s _ hx
  · exact (reg_enterMode_other (s := s.setReg a _) hs).trans (reg_setReg_other s _ hx)

/-- A BITMOD modifies its register or leaves it. -/
theorem modifyReg_reg_self {a : Nat} {m v : Byte} {s t : State} (h : modifyReg a m v s = .ok t) :
    t.reg a = s.reg a ∨ t.reg a = bitModify (s.reg a) m v := by
  obtain ⟨-, -, ⟨-, rfl⟩ | ⟨-, rfl⟩⟩ | ⟨-, hs, -, rfl | ⟨-, -, req, -, -, rfl⟩⟩ := modifyReg_ok h
  · exact .inl rfl
  · exact .inl rfl
  · exact .inr (reg_setReg_self s a _)
  · exact .inr ((reg_enterMode_other (s := s.setReg a _) hs).trans (reg_setReg_self s a _))

/-! ### The mode through an exchange -/

/-- The register byte n of an instruction stores to, if it stores to one (R138, R141). -/
def storeAt (i : Instr) (n : Nat) : Option Nat :=
  match i with
  | .write a _ => if n < 2 then none else some (a + (n - 2))
  | .bitmod a _ _ => if n = 3 then some a else none
  | _ => none

/-- The mode after n bytes of `i`, received from state `s` on: as it was, PowerUp after RESET, or the one a granted
request of the control register's byte has entered; that byte has then passed. -/
def ModeTrack (i : Instr) (s : State) (n : Nat) (u : State) : Prop :=
  u.cfg = s.cfg ∧ (u.mode = s.mode ∨ (i = .reset ∧ u.mode = .powerUp) ∨
    (requestsMode s.cfg i = true ∧ modeGrant s.cfg s.mode u.mode = true ∧
      u.reg s.cfg.ctrlAddr &&& modeMask = modePattern s.cfg u.mode ∧
      ∀ k, n ≤ k → storeAt i k ≠ some s.cfg.ctrlAddr))

section ModeTrack

variable {i : Instr} {s u t : State} {n m : Nat}

/-- Only the mode and the control register count. -/
theorem modeTrack_congr (hnm : n ≤ m) (hcfg : t.cfg = u.cfg) (hmode : t.mode = u.mode)
    (hreg : t.reg s.cfg.ctrlAddr = u.reg s.cfg.ctrlAddr) (h : ModeTrack i s n u) : ModeTrack i s m t := by
  obtain ⟨hc, hm⟩ := h
  refine ⟨hcfg.trans hc, ?_⟩
  rw [hmode, hreg]
  obtain hm | hm | ⟨hreq, hg, hp, hlast⟩ := hm
  · exact .inl hm
  · exact .inr (.inl hm)
  · exact .inr (.inr ⟨hreq, hg, hp, fun k hk => hlast k (Nat.le_trans hnm hk)⟩)

/-- A byte that stores: to another register than the control register, or a granted request, the first one. -/
theorem modeTrack_store {a : Nat} (hc : s.cfg.wf = true) (hat : storeAt i n = some a)
    (hlast : ∀ k, n + 1 ≤ k → storeAt i k ≠ some a) (hcfg : t.cfg = u.cfg)
    (hother : s.cfg.ctrlAddr ≠ a → s.cfg.ctrlAddr ≠ s.cfg.statAddr → t.reg s.cfg.ctrlAddr = u.reg s.cfg.ctrlAddr)
    (hmode : t.mode = u.mode ∨ (a = s.cfg.ctrlAddr ∧ requestsMode s.cfg i = true ∧
      modeGrant s.cfg u.mode t.mode = true ∧ t.reg s.cfg.ctrlAddr &&& modeMask = modePattern s.cfg t.mode))
    (hi : i ≠ .reset) (h : ModeTrack i s n u) : ModeTrack i s (n + 1) t := by
  have hbefore : a = s.cfg.ctrlAddr → u.mode = s.mode := by
    rintro rfl
    obtain hm | ⟨hr, -⟩ | ⟨-, -, -, hpassed⟩ := h.2
    · exact hm
    · exact absurd hr hi
    · exact absurd hat (hpassed n (Nat.le_refl n))
  by_cases ha : a = s.cfg.ctrlAddr
  · refine ⟨hcfg.trans h.1, ?_⟩
    obtain hm | ⟨-, hreq, hg, hp⟩ := hmode
    · exact .inl (hm.trans (hbefore ha))
    · rw [hbefore ha] at hg
      exact .inr (.inr ⟨hreq, hg, hp, ha ▸ hlast⟩)
  · obtain hm | ⟨ha', -⟩ := hmode
    · exact modeTrack_congr (Nat.le_succ n) hcfg hm (hother (Ne.symm ha) (wf_spare hc).1) h
    · exact absurd ha' ha

theorem modeTrack_byteChange (hc : s.cfg.wf = true) (hn : n < (encode i).length) (hb : ByteChange i n u t)
    (h : ModeTrack i s n u) : ModeTrack i s (n + 1) t := by
  have hcfg := h.1
  cases hb with
  | none => exact modeTrack_congr (Nat.le_succ n) rfl rfl rfl h
  | reset hi => exact ⟨hcfg, .inr (.inl ⟨hi, rfl⟩)⟩
  | request sel => exact modeTrack_congr (Nat.le_succ n) rfl rfl rfl h
  | @store a k d _ hi hk hs =>
    subst hi hk
    have hkd : k < d.length := by simpa [encode] using hn
    refine modeTrack_store hc (a := a + k) (by simp [storeAt]) (fun j hj => ?_) (storeReg_sameOutside hs).cfg
      (fun hx hst => storeReg_reg_other hs hx (hcfg ▸ hst)) ?_ (by simp) h
    · simp only [storeAt, show ¬ j < 2 by omega, if_false, ne_eq, Option.some.injEq]
      omega
    · obtain hm | ⟨ha, hg, hp⟩ := storeReg_mode (hcfg ▸ hc) hs
      · exact .inl hm
      · rw [hcfg] at ha hg hp
        refine .inr ⟨ha, ?_, hg, hp⟩
        rw [requestsMode, ← ha, inBlock_iff]
        omega
  | @modify a m v _ hi hk hs =>
    subst hi hk
    refine modeTrack_store hc (a := a) rfl (fun j hj => ?_) (modifyReg_sameOutside hs).cfg
      (fun hx hst => modifyReg_reg_other hs hx (hcfg ▸ hst)) ?_ (by simp) h
    · simp [storeAt, show ¬ j = 3 by omega]
    · obtain hm | ⟨⟨ha, hm⟩, hg, hp⟩ := modifyReg_mode (hcfg ▸ hc) hs
      · exact .inl hm
      · rw [hcfg] at ha hg hp
        refine .inr ⟨ha, ?_, hg, hp⟩
        rw [requestsMode, Bool.and_eq_true, decide_eq_true_eq, decide_eq_true_eq]
        exact ⟨ha, hm⟩

theorem keptByBytes_modeTrack (hc : s.cfg.wf = true) : KeptByBytes i fun rx u => ModeTrack i s rx.length u where
  env rx u e h := by
    have hspare := (wf_spare hc).2.1
    refine modeTrack_congr (Nat.le_refl _) (envStep_sameOutside u e).cfg (envStep_rest u e).1 ?_ h
    exact reg_envStep_spare e (spare_fixed hspare) (h.1 ▸ (wf_spare hc).1)
  setEnv _ _ _ h := h
  setWindow _ _ _ h := h
  byte rx u o t hn h hb := by
    obtain ⟨v, hv, ht⟩ := byteEffect_ok hb
    have hkept := modeTrack_byteChange hc hn hv h
    rw [List.length_append]
    obtain rfl | rfl := ht <;> exact hkept

end ModeTrack

/-- What an instruction leaves of the mode, whatever ENV and the transport do (R235). -/
theorem exec_modeTrack {i : Instr} {s t : State} (hc : s.cfg.wf = true) (h : exec i s = .next t) :
    ∃ n, ModeTrack i s n t := by
  rw [exec_eq_issue] at h
  have h0 : ModeTrack i s 0 (openWindow (nextVerdict s).2) := by rw [nextVerdict_snd]; exact ⟨rfl, .inl rfl⟩
  obtain ⟨rx, u, hu, rfl⟩ := issue_bytes (keptByBytes_modeTrack hc) h0 h
  refine ⟨rx.length, ?_⟩
  unfold concludeIssue
  split <;> exact hu

/-- Settles O54: an instruction enters a mode by RESET or a granted request, the block's move by a target power-up. -/
theorem modeChangesOnlyOnRequest : Obligations.ModeChangesOnlyOnRequest := by
  intro s t hc hs hne
  obtain ⟨tx, i, hw, hd, hexec⟩ | ⟨hw, hadv⟩ := step_next hs
  · obtain ⟨n, -, hm | hm | ⟨hreq, hg, hp, -⟩⟩ := exec_modeTrack (s := s.setWire none) hc hexec
    · exact absurd hm hne
    · exact .inr ⟨tx, i, hw, hd, .inl hm⟩
    · exact .inr ⟨tx, i, hw, hd, .inr ⟨hreq, hg, hp⟩⟩
  · cases (advance_moved hadv).target with
    | same _ _ hm => exact absurd hm hne
    | powerUp hj hh hm => exact .inl ⟨hm, ⟨hj, hw⟩, _, hh⟩
    | env h => exact absurd (h ▸ (envSlot_rest _).1) hne

/-! ### A receive flag through an exchange -/

/-- The record is that of `s`, and the flag is set in INTF. -/
def FlagKept (s : State) (flag : Byte) (u : State) : Prop := u.cfg = s.cfg ∧ u.reg intfAddr &&& flag ≠ 0

section FlagKept

variable {i : Instr} {s u t : State} {flag : Byte} {n : Nat}

theorem flagKept_congr (hcfg : t.cfg = u.cfg) (hreg : t.reg intfAddr &&& flag = u.reg intfAddr &&& flag)
    (h : FlagKept s flag u) : FlagKept s flag t :=
  ⟨hcfg.trans h.1, by rw [hreg]; exact h.2⟩

/-- ENV clears no flag (R305). -/
theorem flagKept_envStep (e : EnvStep) (hc : s.cfg.wf = true) (h : FlagKept s flag u) :
    FlagKept s flag (envStep u e) := by
  obtain ⟨hcfg, hset⟩ := h
  obtain ⟨m, hm⟩ := intf_envStep e (hcfg ▸ hc)
  refine ⟨(envStep_sameOutside u e).cfg.trans hcfg, fun hclear => hset ?_⟩
  rw [hm] at hclear
  ext k hk
  have hk' : ((u.reg intfAddr ||| m) &&& flag)[k] = false := by rw [hclear]; exact BitVec.getElem_zero hk
  simp only [BitVec.getElem_and, BitVec.getElem_or] at hk' ⊢
  cases hx : (u.reg intfAddr)[k] <;> simp_all

theorem intf_ne_stat (hc : s.cfg.wf = true) : intfAddr ≠ s.cfg.statAddr :=
  Ne.symm (spare_ne (wf_spare hc).2.2 (by decide))

theorem flagKept_byteChange (hc : s.cfg.wf = true) (hi : mayClearFlag flag i = false) (hn : n < (encode i).length)
    (hb : ByteChange i n u t) (h : FlagKept s flag u) : FlagKept s flag t := by
  have hstat : intfAddr ≠ u.cfg.statAddr := h.1 ▸ intf_ne_stat hc
  cases hb with
  | none => exact h
  | reset hr => subst hr; cases hi
  | request sel => exact h
  | @store a k d _ hw hk hs =>
    subst hw hk
    have hkd : k < d.length := by simpa [encode] using hn
    have hne : intfAddr ≠ a + k := by
      rintro heq
      have hin : inBlock a d.length intfAddr = true := inBlock_iff.2 (by omega)
      rw [mayClearFlag, hin] at hi
      cases hi
    exact flagKept_congr (storeReg_sameOutside hs).cfg (by rw [storeReg_reg_other hs hne hstat]) h
  | @modify a m v _ hm hk hs =>
    subst hm hk
    refine flagKept_congr (modifyReg_sameOutside hs).cfg ?_ h
    by_cases ha : a = intfAddr
    · subst ha
      have hmask : m &&& flag = 0 := by simpa [mayClearFlag] using hi
      obtain hr | hr := modifyReg_reg_self hs
      · rw [hr]
      · rw [hr, bitModify_and_outside hmask]
    · rw [modifyReg_reg_other hs (Ne.symm ha) hstat]

theorem keptByBytes_flagKept (hc : s.cfg.wf = true) (hi : mayClearFlag flag i = false) :
    KeptByBytes i fun _ u => FlagKept s flag u where
  env _ _ e h := flagKept_envStep e hc h
  setEnv _ _ _ h := h
  setWindow _ _ _ h := h
  byte rx u o t hn h hb := by
    obtain ⟨v, hv, ht⟩ := byteEffect_ok hb
    have hkept := flagKept_byteChange hc hi hn hv h
    obtain rfl | rfl := ht <;> exact hkept

/-- An instruction that may not clear the flag leaves it set (R305). -/
theorem exec_flagKept (hc : s.cfg.wf = true) (hi : mayClearFlag flag i = false) (hset : s.reg intfAddr &&& flag ≠ 0)
    (h : exec i s = .next t) : FlagKept s flag t := by
  rw [exec_eq_issue] at h
  have h0 : FlagKept s flag (openWindow (nextVerdict s).2) := by rw [nextVerdict_snd]; exact ⟨rfl, hset⟩
  obtain ⟨rx, u, hu, rfl⟩ := issue_bytes (keptByBytes_flagKept hc hi) h0 h
  unfold concludeIssue
  split <;> exact hu

end FlagKept

/-- Settles O57: ENV, the bytes of any other instruction and the block's moves keep the flag. -/
theorem rxFlagClearedOnlyByHost : Obligations.RxFlagClearedOnlyByHost := by
  intro s t flag hc hs _ hset hclear
  obtain ⟨tx, i, hw, hd, hexec⟩ | ⟨hw, hadv⟩ := step_next hs
  · refine .inr ⟨tx, i, hw, hd, ?_⟩
    by_contra hmay
    exact (exec_flagKept (s := s.setWire none) hc (by simpa using hmay) hset hexec).2 hclear
  · cases (advance_moved hadv).target with
    | same hcfg hmem => exact absurd ((congrArg (· &&& flag) (reg_congr hmem hcfg intfAddr)).symm.trans hclear) hset
    | powerUp hj hh => exact .inl ⟨⟨hj, hw⟩, _, hh⟩
    | env h =>
      subst h
      have hkept : FlagKept s flag (envSlot (s.setResponse [])) :=
        envSlot_keeps (fun u e hu => flagKept_envStep e hc hu) (fun u e hu => hu) ⟨rfl, hset⟩
      exact absurd hclear hkept.2

end Sys2Proof.Machine
end

section
/-! SUPPORT. Reading a full receive buffer while ENV steps between the bytes: O48. -/

namespace Sys2Proof.Machine

open Sys2Proof.Safety

/-! ### An instruction that no byte of which is refused -/

/-- `issue` when the transport carries the exchange and no byte's effect is refused, whatever ENV does: the relation
kept by every byte holds of all the bytes driven back, and they are the response (R130). -/
theorem issue_carried {i : Instr} {Q : List Byte → State → Prop} {s : State} (hi : i.wf = true)
    (hok : ∀ n u r, byteEffect i n u ≠ .error r) (hQ : KeptByBytes i Q) (hspi : s.spi = [])
    (h : Q [] (openWindow s)) :
    ∃ rx u, Q rx u ∧ rx.length = (encode i).length ∧ SameOutside (openWindow s) u ∧
      issue i s = .next ((endTransaction (encode i) rx u).setResponse (responseOf i rx)) := by
  have hv : nextVerdict s = (.ok, s) := by simp only [nextVerdict, hspi]
  obtain ⟨hrun, herr⟩ := clockBytes_encode hi hQ (bs := encode i) (rx := []) List.prefix_rfl (s := openWindow s) rfl h
  cases hclock : clockBytes (encode i) (openWindow s) with
  | error r =>
    obtain ⟨n, u, hbe⟩ := herr r hclock
    exact absurd hbe (hok n u r)
  | ok p =>
    obtain ⟨rx, u⟩ := p
    obtain ⟨hq, hwin⟩ := hrun rx u hclock
    simp only [List.nil_append, List.length_nil, Nat.zero_add] at hq hwin
    refine ⟨rx, u, hq, clockBytes_length hclock,
      clockBytes_keeps (keptByTarget_sameOutside _) (SameOutside.refl _) (windowOk_openWindow _) hclock, ?_⟩
    simp only [issue, (operandCheck_none i).2 hi, hv, sentBytes, hclock, hwin, releaseCheck_windowAt hi, ite_self,
      returnedBytes, concludeIssue]

theorem byteEffect_read_ok (a c n : Nat) (u : State) (r : Refusal) : byteEffect (.read a c) n u ≠ .error r := by
  simp only [byteEffect]
  split <;> simp

/-! ### A full receive buffer -/

/-- The mode, the buffer's flag and its 14 registers are as they were in `s`, the flag set (R38, R39). -/
structure BufferHeld (n : RxBuf) (s u : State) : Prop where
  cfg : u.cfg = s.cfg
  mode : u.mode = s.mode
  full : u.reg intfAddr &&& rxFlag s.cfg n ≠ 0
  block : ∀ a, inBlock (rxBase n) blockLen a = true → u.reg a = s.reg a

/-- Only the parameters, the memory and the mode count. -/
theorem bufferHeld_congr {n : RxBuf} {s u t : State} (h : BufferHeld n s u) (hcfg : t.cfg = u.cfg)
    (hmem : t.mem = u.mem) (hmode : t.mode = u.mode) : BufferHeld n s t :=
  ⟨hcfg.trans h.cfg, hmode.trans h.mode, by rw [reg_congr hmem hcfg]; exact h.full,
    fun a ha => (reg_congr hmem hcfg a).trans (h.block a ha)⟩

/-- The two receive blocks are disjoint (R56). -/
theorem rxBlock_unique {k n : RxBuf} {a : Nat} (hk : inBlock (rxBase k) blockLen a = true)
    (hn : inBlock (rxBase n) blockLen a = true) : k = n := by
  rw [inBlock_iff] at hk hn
  simp only [blockLen] at hk hn
  cases k <;> cases n
  · rfl
  · simp only [rxBase] at hk hn; omega
  · simp only [rxBase] at hk hn; omega
  · rfl

/-- ENV leaves a receive buffer whose flag is set (R39). -/
theorem reg_envStep_fullBuffer {n : RxBuf} {u : State} {a : Nat} (e : EnvStep) (hc : u.cfg.wf = true)
    (hf : u.reg intfAddr &&& rxFlag u.cfg n ≠ 0) (ha : inBlock (rxBase n) blockLen a = true) :
    (envStep u e).reg a = u.reg a := by
  have hstat : a ≠ u.cfg.statAddr := Ne.symm (spare_ne (wf_spare hc).2.2 (rxBlock_named ha))
  have hge : 0x60 ≤ a := by
    rw [inBlock_iff] at ha
    cases n <;> simp only [rxBase] at ha <;> omega
  have hch := envStep_change u e a
  generalize (envStep u e).reg a = v at hch
  cases hch with
  | same => rfl
  | flags hi => simp only [intfAddr] at hi; omega
  | status hs => exact absurd hs hstat
  | errors he => simp only [errCnt0Addr, errCnt1Addr, eflgAddr] at he; omega
  | txControl k hk => cases k <;> simp only [txBase] at hk <;> omega
  | rxBlock k hk hclear =>
    obtain rfl := rxBlock_unique hk ha
    exact absurd (by simpa [flagSet] using hclear) hf

theorem bufferHeld_envStep {n : RxBuf} {s u : State} (e : EnvStep) (hc : s.cfg.wf = true) (h : BufferHeld n s u) :
    BufferHeld n s (envStep u e) := by
  obtain ⟨hcfg, hmode, hfull, hblock⟩ := h
  have hc' : u.cfg.wf = true := hcfg ▸ hc
  exact ⟨(envStep_sameOutside u e).cfg.trans hcfg, (envStep_rest u e).1.trans hmode,
    (flagKept_envStep e hc ⟨hcfg, hfull⟩).2,
    fun a ha => (reg_envStep_fullBuffer e hc' (hcfg ▸ hfull) ha).trans (hblock a ha)⟩

/-! ### A READ inside the buffer -/

/-- After the opcode and the address byte a READ from `a` on has driven back registers as they are in `s` (R66). -/
def ReadTrack (n : RxBuf) (s : State) (a : Nat) (rx : List Byte) (u : State) : Prop :=
  BufferHeld n s u ∧ rx.drop 2 = regsAt s a (rx.length - 2)

theorem regsAt_succ (s : State) (a n : Nat) : regsAt s a (n + 1) = regsAt s a n ++ [s.reg (a + n)] := by
  simp [regsAt, List.range_succ]

theorem readTrack_byte {n : RxBuf} {s u t : State} {a c : Nat} {rx : List Byte} {o : Byte}
    (hblock : ∀ k, k < c → inBlock (rxBase n) blockLen (a + k) = true) (hlen : rx.length < c + 1 + 1)
    (h : ReadTrack n s a rx u) (hb : byteEffect (.read a c) rx.length u = .ok (o, t)) :
    ReadTrack n s a (rx ++ [o]) t := by
  obtain ⟨hheld, hrx⟩ := h
  simp only [byteEffect] at hb
  split at hb
  · rename_i hlt
    cases hb
    have hdrop : (rx ++ [Config.freeByte u.draws]).drop 2 = [] := List.drop_eq_nil_of_le (by simp; omega)
    have hzero : (rx ++ [Config.freeByte u.draws]).length - 2 = 0 := by simp; omega
    exact ⟨bufferHeld_congr hheld rfl rfl rfl, by rw [hdrop, hzero]; rfl⟩
  · have hin := hblock (rx.length - 2) (by omega)
    have hnamed : isNamed u.cfg (a + (rx.length - 2)) = true := by simp [isNamed, rxBlock_named hin]
    rw [sampleReg_named hnamed] at hb
    cases hb
    refine ⟨hheld, ?_⟩
    rw [List.drop_append_of_le_length (by omega), hrx, hheld.block _ hin, ← regsAt_succ, List.length_append,
      List.length_singleton, show rx.length + 1 - 2 = rx.length - 2 + 1 by omega]

theorem keptByBytes_readTrack {n : RxBuf} {s : State} {a c : Nat} (hc : s.cfg.wf = true)
    (hblock : ∀ k, k < c → inBlock (rxBase n) blockLen (a + k) = true) :
    KeptByBytes (.read a c) (ReadTrack n s a) where
  env _ _ e h := ⟨bufferHeld_envStep e hc h.1, h.2⟩
  setEnv _ _ _ h := ⟨bufferHeld_congr h.1 rfl rfl rfl, h.2⟩
  setWindow _ _ _ h := ⟨bufferHeld_congr h.1 rfl rfl rfl, h.2⟩
  byte rx u o t hn h hb := readTrack_byte hblock (by simpa [encode] using hn) h hb

/-- A `receive` of buffer `n` presented in `s`, when the READs `is` have been issued: the buffer is held, the block's
record is as it was, nothing is offered, and the job is `j`. -/
structure Receiving (n : RxBuf) (s : State) (is : List Instr) (j : Job) (u : State) : Prop where
  held : BufferHeld n s u
  block : SameInstance s u
  job : u.job = some j
  wire : u.wire = none
  spi : u.spi = []
  outcomes : u.outcomes = s.outcomes
  sent : Sent is s u

/-- The READ that was queued is offered, and taken off the wire again. -/
theorem receiving_offer {n : RxBuf} {s u : State} {is : List Instr} {i : Instr} {f : Finish}
    (h : Receiving n s is ⟨[i], f⟩ u) : Receiving n s is ⟨[], f⟩ ((offer i [] f u).setWire none) where
  held := bufferHeld_congr h.held rfl rfl rfl
  block := sameInstance_trans h.block ⟨rfl, rfl, rfl, rfl, rfl⟩
  job := rfl
  wire := rfl
  spi := h.spi
  outcomes := h.outcomes
  sent := h.sent

/-- A READ inside the held buffer brings the registers as they were in `s`, whatever ENV does (R76, R263). -/
theorem exec_read_held {n : RxBuf} {s v : State} {is : List Instr} {j : Job} {a c : Nat} (hc : s.cfg.wf = true)
    (hi : (Instr.read a c).wf = true) (hblock : ∀ k, k < c → inBlock (rxBase n) blockLen (a + k) = true)
    (h : Receiving n s is j v) :
    ∃ t, exec (.read a c) v = .next t ∧ Receiving n s (is ++ [.read a c]) j t ∧ t.response = regsAt s a c := by
  have hstart : ReadTrack n s a [] (openWindow v) := ⟨bufferHeld_congr h.held rfl rfl rfl, rfl⟩
  obtain ⟨rx, w, ⟨hw, hrx⟩, hlen, hso, hissue⟩ :=
    issue_carried hi (byteEffect_read_ok a c) (keptByBytes_readTrack hc hblock) h.spi hstart
  have hsent : Sent [.read a c] v (endTransaction (encode (.read a c)) rx w) :=
    ⟨[⟨encode (.read a c), rx⟩], by rw [endTransaction_trace, hso.trace, openWindow_trace], rfl⟩
  refine ⟨_, (exec_eq_issue _ _).trans hissue, ⟨bufferHeld_congr hw rfl rfl rfl,
    sameInstance_trans h.block ⟨hso.constructed, hso.tp, hso.osc, hso.bitrate, hso.needsReinit⟩, hso.job.trans h.job,
    hso.wire.trans h.wire, hso.spi.trans h.spi, hso.outcomes.trans h.outcomes, sent_append h.sent hsent⟩, ?_⟩
  rw [hlen, show (encode (.read a c)).length - 2 = c by simp [encode]] at hrx
  exact hrx

/-- The two steps of a READ inside the held buffer. -/
theorem run_read_held {n : RxBuf} {s u : State} {is : List Instr} {f : Finish} {a c : Nat} (hc : s.cfg.wf = true)
    (hi : (Instr.read a c).wf = true) (hblock : ∀ k, k < c → inBlock (rxBase n) blockLen (a + k) = true)
    (h : Receiving n s is ⟨[.read a c], f⟩ u) :
    ∃ t, Runs 2 u t ∧ Receiving n s (is ++ [.read a c]) ⟨[], f⟩ t ∧ t.response = regsAt s a c := by
  obtain ⟨t, ht, hdone⟩ := exec_read_held hc hi hblock (receiving_offer h)
  exact ⟨t, runs_succ (step_offer h.wire h.job) (runs_one ((step_offered hi rfl).trans ht)), hdone⟩

/-! ### The command -/

/-- The whole of `receive` up to its answer. -/
structure Received (n : RxBuf) (s : State) (is : List Instr) (f : CanFrame) (t : State) : Prop where
  idle : Idle t
  block : SameInstance s t
  held : BufferHeld n s t
  outcomes : t.outcomes = s.outcomes ++ [.ok (.frame f)]
  sent : Sent is s t

/-- Delivering the frame ends the command. -/
theorem received_deliver {n : RxBuf} {s u : State} {is : List Instr} {g : Finish} (f : CanFrame)
    (h : Receiving n s is ⟨[], g⟩ u) : Received n s is f (deliver (.ok (.frame f)) (u.setResponse [])) where
  idle := ⟨rfl, h.wire⟩
  block := sameInstance_trans h.block ⟨rfl, rfl, rfl, rfl, rfl⟩
  held := bufferHeld_congr h.held rfl rfl rfl
  outcomes := congrArg (· ++ [CmdOutcome.ok (.frame f)]) h.outcomes
  sent := h.sent

/-- The header has been read and is that of a frame without data: the answer is the next step (R262). -/
theorem receive_without_data {n : RxBuf} {s u : State} {is : List Instr} {id : Id32}
    (hd : decodeHeader s.cfg (headerAt s (rxBase n)) = .ok (id, 0))
    (h : Receiving n s is ⟨[], .header n false⟩ u) (hr : u.response = regsAt s (rxBase n) 6) :
    ∃ t, Runs 1 u t ∧ Received n s is ⟨id, []⟩ t := by
  refine ⟨_, runs_one ?_, received_deliver ⟨id, []⟩ h⟩
  have hhead : headerOf u.response = some (headerAt s (rxBase n)) := by rw [hr]; rfl
  simp [step_finish h.wire h.job, finishJob, hhead, finishHeader, h.held.cfg, hd, frameRead]

/-- The header has been read and there is data: it is read by one more READ, and the frame is the answer. -/
theorem receive_with_data {n : RxBuf} {s u : State} {is : List Instr} {id : Id32} {dlc : Nat} (hc : s.cfg.wf = true)
    (hd : decodeHeader s.cfg (headerAt s (rxBase n)) = .ok (id, dlc)) (hpos : dlc ≠ 0)
    (h : Receiving n s is ⟨[], .header n false⟩ u) (hr : u.response = regsAt s (rxBase n) 6) :
    ∃ t, Runs 4 u t ∧
      Received n s (is ++ [.read (rxBase n + 6) dlc]) ⟨id, regsAt s (rxBase n + 6) dlc⟩ t := by
  have hdlc : dlc ≤ 8 := decodeHeader_ok hd
  have hhead : headerOf u.response = some (headerAt s (rxBase n)) := by rw [hr]; rfl
  have hnext : step u = .next (startJob [.read (rxBase n + 6) dlc] (.payload n id false) (u.setResponse [])) := by
    simp [step_finish h.wire h.job, finishJob, hhead, finishHeader, h.held.cfg, hd, Nat.pos_of_ne_zero hpos, hdrLen]
  have hqueued : Receiving n s is ⟨[.read (rxBase n + 6) dlc], .payload n id false⟩
      (startJob [.read (rxBase n + 6) dlc] (.payload n id false) (u.setResponse [])) :=
    ⟨bufferHeld_congr h.held rfl rfl rfl, sameInstance_trans h.block ⟨rfl, rfl, rfl, rfl, rfl⟩, rfl, h.wire, h.spi,
      h.outcomes, h.sent⟩
  obtain ⟨v, hv, hdone, hdata⟩ := run_read_held hc (payloadRead_wf (Nat.pos_of_ne_zero hpos) hdlc)
    (fun k hk => inBlock_iff.2 (by simp only [blockLen, hdrLen]; omega)) hqueued
  have hlast : step v = .next (deliver (.ok (.frame ⟨id, regsAt s (rxBase n + 6) dlc⟩)) (v.setResponse [])) := by
    rw [step_finish hdone.wire hdone.job, hdata]
    rfl
  exact ⟨_, runs_succ hnext (runs_add hv (runs_one hlast)), received_deliver _ hdone⟩

/-- `receive` of a full buffer reads its header first, as it was when the command was presented (R262, R263). -/
theorem receive_header {n : Nat} {b : RxBuf} {s : State} {es : List HostEvent} (hp : Presents (.receive n) es s)
    (hspi : s.spi = []) (hc : s.cfg.wf = true) (hcon : s.constructed = true) (hn : rxBufOf n = some b)
    (hfull : s.reg intfAddr &&& rxFlag s.cfg b ≠ 0) :
    ∃ t, Runs 3 s t ∧ Receiving b s [.read (rxBase b) 6] ⟨[], .header b false⟩ t ∧
      t.response = regsAt s (rxBase b) 6 := by
  have haccept : step s = .next (startJob [headerRead b] (.header b false) (taking es s)) := by
    rw [step_presents hp, acceptCommand_open (.inl (show (taking es s).constructed = true from hcon))]
    simp only [acceptOpen, acceptReceive, hn]
  have hqueued : Receiving b s [] ⟨[headerRead b], .header b false⟩
      (startJob [headerRead b] (.header b false) (taking es s)) :=
    ⟨⟨rfl, rfl, hfull, fun _ _ => rfl⟩, ⟨rfl, rfl, rfl, rfl, rfl⟩, rfl, hp.1.2, hspi, rfl, [], by simp [taking], rfl⟩
  obtain ⟨t, ht, hdone⟩ := run_read_held hc (headerRead_wf b)
    (fun k hk => inBlock_iff.2 (by simp only [blockLen, hdrLen] at hk ⊢; omega)) hqueued
  exact ⟨t, runs_succ haccept ht, hdone⟩

/-- Settles O48: the header and then the data are read from a buffer that ENV leaves while its flag is set. -/
theorem receiveConsistentUnderEnv : Obligations.ReceiveConsistentUnderEnv := by
  intro s es n base flag id dlc hp hspi hc hcon hbuf hfull hd
  obtain ⟨b, hn, rfl, rfl⟩ : ∃ b, rxBufOf n = some b ∧ base = rxBase b ∧ flag = rxFlag s.cfg b := by
    obtain ⟨rfl, rfl, rfl⟩ | ⟨rfl, rfl, rfl⟩ := hbuf
    · exact ⟨.rxb0, rfl, rfl, rfl⟩
    · exact ⟨.rxb1, rfl, rfl, rfl⟩
  obtain ⟨u, hu, hdone, hheader⟩ := receive_header hp hspi hc hcon hn hfull
  have hanswer : ∃ t, Runs (if dlc = 0 then 4 else 7) s t ∧
      Received b s (.read (rxBase b) 6 :: (if dlc = 0 then [] else [.read (rxBase b + 6) dlc]))
        ⟨id, regsAt s (rxBase b + 6) dlc⟩ t := by
    by_cases h0 : dlc = 0
    · subst h0
      obtain ⟨t, ht, hr⟩ := receive_without_data hd hdone hheader
      exact ⟨t, runs_add hu ht, hr⟩
    · obtain ⟨t, ht, hr⟩ := receive_with_data hc hd h0 hdone hheader
      rw [if_neg h0, if_neg h0]
      exact ⟨t, runs_add hu ht, hr⟩
  obtain ⟨t, ht, hidle, hinst, hheld, hout, hsent⟩ := hanswer
  exact ⟨t, ht, hidle, hinst, hheld.mode, hout, hheld.full,
    fun k hk => hheld.block _ (inBlock_iff.2 (by simp only [blockLen]; omega)), hsent⟩

end Sys2Proof.Machine
end

section
/-! SUPPORT. Stores the target does not take, the status register's and the unnamed addresses': O22. -/

namespace Sys2Proof.Machine

open Sys2Proof.Safety

/-! ### The status register and the unnamed addresses in the map -/

/-- The map names every protected register (R52, R62). -/
theorem named_of_protected {c : Cfg} {a : Nat} (h : isProtected c a = true) : isNamed c a = true := by
  simp only [isProtected, Bool.or_eq_true] at h
  simp only [isNamed, isFixedNamed, Bool.or_eq_true]
  tauto

theorem unprotected_of_unnamed {c : Cfg} {a : Nat} (h : isNamed c a = false) : isProtected c a = false := by
  by_contra hp
  simp [named_of_protected (by simpa using hp)] at h

theorem stat_unprotected {c : Cfg} (hc : c.wf = true) : isProtected c c.statAddr = false :=
  spare_unprotected (wf_spare hc).2.2

theorem protected_ne_stat {c : Cfg} {a : Nat} (hc : c.wf = true) (h : isProtected c a = true) : a ≠ c.statAddr := by
  rintro rfl
  simp [stat_unprotected hc] at h

theorem ne_stat_of_unnamed {c : Cfg} {a : Nat} (h : isNamed c a = false) : a ≠ c.statAddr := by
  rintro rfl
  simp [isNamed] at h

/-! ### One store -/

theorem storeReg_stat {s : State} (v : Byte) (hc : s.cfg.wf = true) :
    storeReg s.cfg.statAddr v s = .error .statusWrite := by
  simp [storeReg, stat_unprotected hc]

theorem storeReg_unnamed {s : State} {a : Nat} (v : Byte) (h : isNamed s.cfg a = false) :
    storeReg a v s = .error (.unnamedWrite a) := by
  simp [storeReg, unprotected_of_unnamed h, ne_stat_of_unnamed h, h]

theorem modifyReg_stat {s : State} (m v : Byte) (hc : s.cfg.wf = true) :
    modifyReg s.cfg.statAddr m v s = .error .statusWrite := by
  simp [modifyReg, stat_unprotected hc]

theorem modifyReg_unnamed {s : State} {a : Nat} (m v : Byte) (h : isNamed s.cfg a = false) :
    modifyReg a m v s = .error (.unnamedWrite a) := by
  simp [modifyReg, unprotected_of_unnamed h, ne_stat_of_unnamed h, h]

/-- A burst of stores that is not refused reaches neither the status register nor an unnamed address (R61, R63). -/
theorem memWrite_ok_specified {a k : Nat} {d : List Byte} {s t : State} (hc : s.cfg.wf = true)
    (h : memWrite a d s = .ok t) (hk : k < d.length) : a + k ≠ s.cfg.statAddr ∧ isNamed s.cfg (a + k) = true := by
  induction d generalizing a k s with
  | nil => simp at hk
  | cons v d ih =>
    simp only [memWrite] at h
    split at h
    · cases h
    · rename_i u hu
      have hcfg := (storeReg_sameOutside hu).cfg
      cases k with
      | zero =>
        obtain ⟨hp, -, -⟩ | ⟨-, hs, hn, -⟩ := storeReg_ok hu
        · exact ⟨protected_ne_stat hc hp, named_of_protected hp⟩
        · exact ⟨hs, hn⟩
      | succ k =>
        have hrest := ih (hcfg ▸ hc) h (Nat.lt_of_succ_lt_succ hk)
        rwa [hcfg, show a + 1 + k = a + (k + 1) by omega] at hrest

/-! ### The whole instruction -/

/-- An instruction whose whole effect is refused is refused by `issue`, when nothing interferes (R130, R301). -/
theorem exec_refused {i : Instr} {s : State} {r : Refusal} (hq : Quiet s) (hi : i.wf = true)
    (h : wholeEffect i s = .error r) : exec i s = .refused r := by
  obtain ⟨rx, n, -, hissue⟩ := issue_whole hi hq.1 hq.2
  rw [exec_eq_issue, hissue, h]

/-- A WRITE of one byte whose store is refused is refused for the same reason. -/
theorem exec_write_byte_refused {s : State} {a : Nat} {v : Byte} {r : Refusal} (hq : Quiet s) (ha : a < 128)
    (h : storeReg a v s = .error r) : exec (.write a [v]) s = .refused r :=
  exec_refused hq (wf_write.2 ⟨ha, Nat.le_refl 1, ha⟩) (by simp only [wholeEffect, memWrite, h])

/-- Settles O22: a burst that is carried out stores to specified addresses alone, and one byte's refusal is the
instruction's. -/
theorem unspecifiedWritesRefused : Obligations.UnspecifiedWritesRefused := by
  intro s hq hc
  have hstat : s.cfg.statAddr < 128 := spare_lt (wf_spare hc).2.2
  refine ⟨fun a k d hi hk hbad => ?_, fun v => ?_, fun a v ha hn => ?_, fun m v => ?_, fun a m v ha hn => ?_⟩
  · cases hw : memWrite a d s with
    | error r => exact ⟨r, exec_refused hq hi hw⟩
    | ok t =>
      obtain ⟨hne, hnamed⟩ := memWrite_ok_specified hc hw hk
      obtain heq | hunnamed := hbad
      · exact absurd heq hne
      · simp [hnamed] at hunnamed
  · exact exec_write_byte_refused hq hstat (storeReg_stat v hc)
  · exact exec_write_byte_refused hq ha (storeReg_unnamed v hn)
  · exact exec_refused hq (wf_bitmod.2 hstat) (modifyReg_stat m v hc)
  · exact exec_refused hq (wf_bitmod.2 ha) (modifyReg_unnamed m v hn)

end Sys2Proof.Machine
end

section
/-! SUPPORT. A BITMOD while ENV steps before each of its bytes: O27. -/

namespace Sys2Proof.Machine

open Sys2Proof.Safety

/-! ### ENV does not see the decoder -/

theorem putBytes_rewindow (a : Nat) (bs : List Byte) (c : ChipSelect) (w : Option Window) (n : Nat) (s : State) :
    putBytes a bs (rewindow c w n s) = rewindow c w n (putBytes a bs s) := by
  induction bs generalizing a s with
  | nil => rfl
  | cons b bs ih => exact ih (a + 1) (s.setReg a b)

/-- An ENV step commutes with a change of the chip-select line, the decoder's window and the free bytes used. -/
theorem envStep_rewindow (e : EnvStep) (c : ChipSelect) (w : Option Window) (n : Nat) (s : State) :
    envStep (rewindow c w n s) e = rewindow c w n (envStep s e) := by
  cases e with
  | fillRx b block =>
    simp only [envStep, fillRx, reg_rewindow, rewindow_cfg, putBytes_rewindow, apply_ite (rewindow c w n)]
    rfl
  | txDone b v =>
    simp only [envStep, finishTx, apply_ite (rewindow c w n)]
    rfl
  | _ => rfl

theorem envSlot_rewindow (c : ChipSelect) (w : Option Window) (n : Nat) (s : State) :
    envSlot (rewindow c w n s) = rewindow c w n (envSlot s) := by
  simp only [envSlot, rewindow_env]
  split
  · rfl
  · rename_i rest _
    exact List.foldl_hom (init := s.setEnv rest) (rewindow c w n) fun u e => envStep_rewindow e c w n u

/-! ### Consecutive slots -/

/-- A slot uses up one entry of ENV's list. -/
theorem envSlot_env (s : State) : (envSlot s).env = s.env.drop 1 := by
  unfold envSlot
  split
  · rename_i h; simp [h]
  · rename_i steps rest h
    rw [h]
    exact List.foldlRecOn steps envStep (motive := fun u => u.env = rest) (b := s.setEnv rest) rfl
      fun u hu e _ => (envStep_rest u e).2.2.1.trans hu

/-- What ENV leaves alone in any number of slots (R38). -/
theorem envSlots_rest (k : Nat) (s : State) :
    (envSlot^[k] s).cfg = s.cfg ∧ (envSlot^[k] s).mode = s.mode ∧ (envSlot^[k] s).marks = s.marks ∧
    (envSlot^[k] s).env = s.env.drop k := by
  induction k generalizing s with
  | zero => exact ⟨rfl, rfl, rfl, rfl⟩
  | succ k ih =>
    obtain ⟨hcfg, hmode, hmarks, henv⟩ := ih (envSlot s)
    obtain ⟨hmode', -, hmarks', -⟩ := envSlot_rest s
    rw [Function.iterate_succ_apply]
    refine ⟨hcfg.trans (envSlot_sameOutside s).cfg, hmode.trans hmode', hmarks.trans hmarks', ?_⟩
    rw [henv, envSlot_env, List.drop_drop, Nat.add_comm]

theorem writable_envSlots {s : State} {a : Nat} (k : Nat) (h : Writable s a) : Writable (envSlot^[k] s) a := by
  obtain ⟨hcfg, hmode, -, -⟩ := envSlots_rest k s
  unfold Writable
  rw [hcfg, hmode]
  exact h

/-! ### The four bytes -/

/-- A BITMOD of a writable register that requests no mode replaces the masked bits (R141). -/
theorem modifyReg_writable {s : State} {a : Nat} {m v : Byte} (hw : Writable s a)
    (hm : a = s.cfg.ctrlAddr → m &&& modeMask = 0) :
    modifyReg a m v s = .ok (s.setReg a (bitModify (s.reg a) m v)) := by
  obtain ⟨hstat, hnamed, hprot⟩ := hw
  have hrequest : ¬ (a = s.cfg.ctrlAddr ∧ m &&& modeMask ≠ 0) := fun h => h.2 (hm h.1)
  rw [modifyReg, if_neg (by simpa using hprot), if_neg hstat, if_neg (by simp [hnamed]), if_neg hrequest]

/-- A byte of an instruction on the wire, seen from the target before the transaction began (R148). -/
theorem clockByte_rewindow {i : Instr} (hi : i.wf = true) {n d : Nat} {b : Byte} (hb : (encode i)[n]? = some b)
    (s : State) :
    clockByte b (rewindow .asserted (some (windowAt i n)) d s) =
      (byteEffect i n (rewindow .asserted (some (windowAt i n)) d (envSlot s))).map
        fun p => (p.1, p.2.setWindow (some (windowAt i (n + 1)))) := by
  rw [clockByte_encode hi hb rfl, envSlot_rewindow]

/-- The exchange of a BITMOD: ENV has four slots, and the register is modified as the last one leaves it (R74, R76). -/
theorem clockBytes_bitmod {a : Nat} {m v : Byte} (ha : a < 128) (s : State) :
    clockBytes (encode (.bitmod a m v)) (openWindow s) =
      (modifyReg a m v (envSlot^[4] s)).map fun t => (freeBytes s.draws 4,
        rewindow .asserted (some (windowAt (.bitmod a m v) 4)) (s.draws + 4) t) := by
  have hi : (Instr.bitmod a m v).wf = true := wf_bitmod.2 ha
  have hopen : openWindow s = rewindow .asserted (some (windowAt (.bitmod a m v) 0)) s.draws s := rfl
  have hidle : ∀ {n : Nat} {b : Byte} (d : Nat) (u : State), (encode (.bitmod a m v))[n]? = some b → n ≠ 3 →
      clockByte b (rewindow .asserted (some (windowAt (.bitmod a m v) n)) d u) = .ok (Config.freeByte d,
        rewindow .asserted (some (windowAt (.bitmod a m v) (n + 1))) (d + 1) (envSlot u)) := by
    intro n b d u hb hn
    rw [clockByte_rewindow hi hb]
    simp only [byteEffect, if_neg hn]
    rfl
  have hlast : ∀ (d : Nat) (u : State),
      clockByte v (rewindow .asserted (some (windowAt (.bitmod a m v) 3)) d u) =
        (modifyReg a m v (envSlot u)).map fun t => (Config.freeByte d,
          rewindow .asserted (some (windowAt (.bitmod a m v) 4)) (d + 1) t) := by
    intro d u
    rw [clockByte_rewindow (n := 3) hi rfl]
    simp only [byteEffect, if_true, modifyReg_rewindow]
    cases modifyReg a m v (envSlot u) <;> rfl
  rw [hopen, encode]
  simp only [clockBytes, hidle (n := 0) _ _ rfl (by decide), hidle (n := 1) _ _ rfl (by decide),
    hidle (n := 2) _ _ rfl (by decide), hlast]
  change _ = (modifyReg a m v (envSlot (envSlot (envSlot (envSlot s))))).map _
  cases modifyReg a m v (envSlot (envSlot (envSlot (envSlot s)))) <;> rfl

/-- A BITMOD that the transport carries and whose modification is not refused, whatever ENV does (R76, R141). -/
theorem exec_bitmod_carried {a : Nat} {m v : Byte} {s u : State} (hspi : s.spi = []) (ha : a < 128)
    (h : modifyReg a m v (envSlot^[4] s) = .ok u) :
    ∃ rx w n, exec (.bitmod a m v) s =
      .next ((endTransaction (encode (.bitmod a m v)) rx (rewindow .asserted w n u)).setResponse []) := by
  have hi : (Instr.bitmod a m v).wf = true := wf_bitmod.2 ha
  have hv : nextVerdict s = (.ok, s) := by simp only [nextVerdict, hspi]
  refine ⟨freeBytes s.draws 4, some (windowAt (.bitmod a m v) 4), s.draws + 4, ?_⟩
  rw [exec_eq_issue]
  simp only [issue, (operandCheck_none _).2 hi, hv, sentBytes, clockBytes_bitmod ha, h, Except.map]
  rfl

/-- Settles O27: the register is modified as ENV's fourth slot leaves it, and ENV changes neither the mode nor the
map that make it writable. -/
theorem bitmodUnderEnv : Obligations.BitmodUnderEnv := by
  intro s a m v hspi _ ha hw hm
  -- the state after the slots gets a name of its own, so that no later step computes it
  obtain ⟨u, hu⟩ : ∃ u, envSlot^[4] s = u := ⟨_, rfl⟩
  obtain ⟨hcfg, hmode, hmarks, henv⟩ := hu ▸ envSlots_rest 4 s
  have hmodify : modifyReg a m v (envSlot^[4] s) = .ok (u.setReg a (bitModify (u.reg a) m v)) := by
    rw [hu]
    exact modifyReg_writable (hu ▸ writable_envSlots 4 hw) (hcfg ▸ hm)
  obtain ⟨rx, w, n, hexec⟩ := exec_bitmod_carried hspi ha hmodify
  rw [show envSlot (envSlot (envSlot (envSlot s))) = u from hu]
  exact ⟨_, hexec, hmode, hmarks, rfl, rfl, rfl, henv, fun x => reg_setReg u a x _⟩

end Sys2Proof.Machine
end

section
/-! SUPPORT. A protected register through an exchange: O55. -/

namespace Sys2Proof.Machine

open Sys2Proof.Safety

/-! ### ENV -/

/-- No protected register is volatile (R38, R62). -/
theorem not_volatile_of_protected {s : State} {a : Nat} (hc : s.cfg.wf = true) (h : isProtected s.cfg a = true) :
    isVolatile s a = false := by
  have hrange : a < 0x1C ∨ (0x20 ≤ a ∧ a < 0x2B) := by
    have hf := wf_filters hc
    simp only [filterBases, List.forall_mem_cons] at hf
    simp only [isProtected, isFilterByte, isMaskByte, isBitTiming, cnf1Addr, Bool.or_eq_true, inBlock_iff] at h
    omega
  have hstat := protected_ne_stat hc h
  have hrx : ∀ n, inBlock (rxBase n) blockLen a = false := by
    intro n
    rw [← Bool.not_eq_true, inBlock_iff]
    cases n <;> simp only [rxBase] <;> omega
  simp only [isVolatile, hrx, Bool.false_and, Bool.or_false, Bool.or_eq_false_iff, decide_eq_false_iff_not]
  simp only [intfAddr, errCnt0Addr, errCnt1Addr, eflgAddr, txBase]
  omega

theorem reg_envStep_protected {s : State} {a : Nat} (e : EnvStep) (hc : s.cfg.wf = true)
    (hp : isProtected s.cfg a = true) : (envStep s e).reg a = s.reg a :=
  reg_envStep_of_not_volatile e (not_volatile_of_protected hc hp)

theorem reg_envSlot_protected {s : State} {a : Nat} (hc : s.cfg.wf = true) (hp : isProtected s.cfg a = true) :
    (envSlot s).reg a = s.reg a := by
  refine (envSlot_keeps (P := fun u => u.cfg = s.cfg ∧ u.reg a = s.reg a) ?_ (fun _ _ h => h) ⟨rfl, rfl⟩).2
  rintro u e ⟨hcfg, hreg⟩
  exact ⟨(envStep_sameOutside u e).cfg.trans hcfg, (reg_envStep_protected e (hcfg ▸ hc) (hcfg ▸ hp)).trans hreg⟩

/-! ### One byte -/

section ProtectedByte

variable {i : Instr} {u t : State} {n a : Nat}

/-- Only the byte for the control register changes the mode, but for RESET (R234, R235). -/
theorem byteChange_mode (hc : u.cfg.wf = true) (hi : i ≠ .reset) (hb : ByteChange i n u t) :
    t.mode = u.mode ∨ storeAt i n = some u.cfg.ctrlAddr := by
  cases hb with
  | none => exact .inl rfl
  | reset hr => exact absurd hr hi
  | request sel => exact .inl rfl
  | store hw hk hs =>
    subst hw hk
    obtain hm | ⟨hctrl, -, -⟩ := storeReg_mode hc hs
    · exact .inl hm
    · exact .inr (by simp [storeAt, hctrl])
  | modify hw hk hs =>
    subst hw hk
    obtain hm | ⟨⟨hctrl, -⟩, -, -⟩ := modifyReg_mode hc hs
    · exact .inl hm
    · exact .inr (by simp [storeAt, hctrl])

/-- A byte changes a protected register by a store to it in Config mode alone, but for RESET (R62). -/
theorem byteChange_protected (hc : u.cfg.wf = true) (hp : isProtected u.cfg a = true) (hi : i ≠ .reset)
    (hn : n < (encode i).length) (hb : ByteChange i n u t) :
    t.reg a = u.reg a ∨ (storesTo i a = true ∧ u.mode = .config) := by
  have hstat := protected_ne_stat hc hp
  cases hb with
  | none => exact .inl rfl
  | reset hr => exact absurd hr hi
  | request sel => exact .inl rfl
  | @store b k d _ hw hk hs =>
    subst hw hk
    by_cases hab : a = b + k
    · subst hab
      obtain ⟨-, -, rfl⟩ | ⟨hopen, -, -, -⟩ := storeReg_ok hs
      · exact .inl rfl
      · have hkd : k < d.length := by simpa [encode] using hn
        exact .inr ⟨inBlock_iff.2 (by omega), by simpa [hp] using hopen⟩
    · exact .inl (storeReg_reg_other hs hab hstat)
  | @modify b m v _ hw hk hs =>
    subst hw hk
    by_cases hab : a = b
    · subst hab
      obtain ⟨-, -, ⟨-, rfl⟩ | ⟨-, rfl⟩⟩ | ⟨hopen, -, -, -⟩ := modifyReg_ok hs
      · exact .inl rfl
      · exact .inl rfl
      · exact .inr ⟨by simp [storesTo], by simpa [hp] using hopen⟩
    · exact .inl (modifyReg_reg_other hs hab hstat)

end ProtectedByte

/-! ### The exchange -/

/-- Config was the mode before the exchange, or it is the mode after n bytes of `i` and stays so: the byte for the
control register has passed. -/
def ConfigSeen (i : Instr) (s : State) (n : Nat) (u : State) : Prop :=
  s.mode = .config ∨ (u.mode = .config ∧ ∀ k, n ≤ k → storeAt i k ≠ some s.cfg.ctrlAddr)

/-- After n bytes of `i` the register `a` is as it was in `s`, or `i` stores to it and Config has been seen. -/
structure ProtectedTrack (i : Instr) (s : State) (a n : Nat) (u : State) : Prop where
  mode : ModeTrack i s n u
  reg : u.reg a = s.reg a ∨ (storesTo i a = true ∧ ConfigSeen i s n u)

section ProtectedTrack

variable {i : Instr} {s u t : State} {n a : Nat}

/-- Config as the mode within an exchange: from before it, or by the control register's byte (R235). -/
theorem configSeen_of_mode (hi : i ≠ .reset) (hm : ModeTrack i s n u) (h : u.mode = .config) :
    ConfigSeen i s n u := by
  obtain hsame | ⟨hr, -⟩ | ⟨-, -, -, hpassed⟩ := hm.2
  · exact .inl (hsame.symm.trans h)
  · exact absurd hr hi
  · exact .inr ⟨h, hpassed⟩

theorem configSeen_byteChange (hc : s.cfg.wf = true) (hcfg : u.cfg = s.cfg) (hi : i ≠ .reset)
    (hb : ByteChange i n u t) (h : ConfigSeen i s n u) : ConfigSeen i s (n + 1) t := by
  obtain hs | ⟨hu, hpassed⟩ := h
  · exact .inl hs
  · obtain hm | hctrl := byteChange_mode (hcfg ▸ hc) hi hb
    · exact .inr ⟨hm.trans hu, fun k hk => hpassed k (Nat.le_of_succ_le hk)⟩
    · exact absurd (hcfg ▸ hctrl) (hpassed n (Nat.le_refl n))

theorem protectedTrack_byteChange (hc : s.cfg.wf = true) (hp : isProtected s.cfg a = true) (hi : i ≠ .reset)
    (hn : n < (encode i).length) (hb : ByteChange i n u t) (h : ProtectedTrack i s a n u) :
    ProtectedTrack i s a (n + 1) t := by
  obtain ⟨hmode, hreg⟩ := h
  have hcfg := hmode.1
  refine ⟨modeTrack_byteChange hc hn hb hmode, ?_⟩
  obtain hkept | ⟨hst, hconfig⟩ := byteChange_protected (hcfg ▸ hc) (hcfg ▸ hp) hi hn hb
  · obtain hsame | ⟨hst, hseen⟩ := hreg
    · exact .inl (hkept.trans hsame)
    · exact .inr ⟨hst, configSeen_byteChange hc hcfg hi hb hseen⟩
  · exact .inr ⟨hst, configSeen_byteChange hc hcfg hi hb (configSeen_of_mode hi hmode hconfig)⟩

theorem keptByBytes_protectedTrack (hc : s.cfg.wf = true) (hp : isProtected s.cfg a = true) (hi : i ≠ .reset) :
    KeptByBytes i fun rx u => ProtectedTrack i s a rx.length u where
  env rx u e h := by
    have hcfg := h.mode.1
    refine ⟨(keptByBytes_modeTrack hc).env rx u e h.mode, ?_⟩
    rw [reg_envStep_protected e (hcfg ▸ hc) (hcfg ▸ hp), ConfigSeen, (envStep_rest u e).1]
    exact h.reg
  setEnv _ _ _ h := ⟨h.mode, h.reg⟩
  setWindow _ _ _ h := ⟨h.mode, h.reg⟩
  byte rx u o t hn h hb := by
    obtain ⟨v, hv, ht⟩ := byteEffect_ok hb
    obtain ⟨hmode, hreg⟩ := protectedTrack_byteChange hc hp hi hn hv h
    rw [List.length_append]
    obtain rfl | rfl := ht <;> exact ⟨hmode, hreg⟩

/-- What an instruction other than RESET leaves of a protected register, whatever ENV and the transport do (R62). -/
theorem exec_protected (hc : s.cfg.wf = true) (hp : isProtected s.cfg a = true) (hi : i ≠ .reset)
    (h : exec i s = .next t) :
    t.reg a = s.reg a ∨ (storesTo i a = true ∧ (s.mode = .config ∨ t.mode = .config)) := by
  rw [exec_eq_issue] at h
  have h0 : ProtectedTrack i s a 0 (openWindow (nextVerdict s).2) := by
    rw [nextVerdict_snd]
    exact ⟨⟨rfl, .inl rfl⟩, .inl rfl⟩
  obtain ⟨rx, u, ⟨-, hreg⟩, rfl⟩ := issue_bytes (keptByBytes_protectedTrack hc hp hi) h0 h
  have hu : u.reg a = s.reg a ∨ (storesTo i a = true ∧ (s.mode = .config ∨ u.mode = .config)) :=
    hreg.imp_right fun ⟨hst, hseen⟩ => ⟨hst, hseen.imp_right And.left⟩
  unfold concludeIssue
  split <;> exact hu

end ProtectedTrack

/-- Settles O55: an instruction changes a protected register as RESET or by a store in Config, the block's move by a
target power-up. -/
theorem protectedChangesOnlyInConfig : Obligations.ProtectedChangesOnlyInConfig := by
  intro s t a hc hs hp hne
  obtain ⟨tx, i, hw, hd, hexec⟩ | ⟨hw, hadv⟩ := step_next hs
  · refine .inr ⟨tx, i, hw, hd, ?_⟩
    by_cases hi : i = .reset
    · exact .inl hi
    · exact .inr ((exec_protected (s := s.setWire none) hc hp hi hexec).resolve_left hne)
  · cases (advance_moved hadv).target with
    | same hcfg hmem => exact absurd (reg_congr hmem hcfg a) hne
    | powerUp hj hh => exact .inl ⟨⟨hj, hw⟩, _, hh⟩
    | env h => exact absurd (h ▸ reg_envSlot_protected (s := s.setResponse []) hc hp) hne

end Sys2Proof.Machine
end

section
/-! SUPPORT. The wire formats: which bytes decode, to what, and back (R91 to R103), and the RTS instructions: O5 to O10,
O25. -/

namespace Sys2Proof.Machine

open Sys2Proof.Safety

/-! ### The shapes that are an instruction (R101) -/

/-- A transaction of one of the shapes of R101 and the instruction it is. -/
inductive WireForm : List Byte → Instr → Prop where
  | reset : WireForm [opReset] .reset
  | read {a : Byte} {f : List Byte} (hi : (Instr.read a.toNat f.length).wf = true) :
      WireForm (opRead :: a :: f) (.read a.toNat f.length)
  | write {a : Byte} {d : List Byte} (hi : (Instr.write a.toNat d).wf = true) :
      WireForm (opWrite :: a :: d) (.write a.toNat d)
  | bitmod {a m v : Byte} (hi : (Instr.bitmod a.toNat m v).wf = true) :
      WireForm [opBitmod, a, m, v] (.bitmod a.toNat m v)
  | rtsTxb0 : WireForm [opRts0] .rtsTxb0
  | rtsTxb1 : WireForm [opRts1] .rtsTxb1
  | rtsTxb2 : WireForm [opRts2] .rtsTxb2
  | rtsAll : WireForm [opRtsAll] .rtsAll

theorem decodeZ_eq_ok {i j : Instr} {rest : List Byte} (h : decodeZ i rest = .ok j) : rest = [] ∧ j = i := by
  cases rest with
  | nil => cases h; exact ⟨rfl, rfl⟩
  | cons b bs => cases h

theorem decodeR_eq_ok {i : Instr} {rest : List Byte} (h : decodeR rest = .ok i) : WireForm (opRead :: rest) i := by
  unfold decodeR at h
  split at h
  · split_ifs at h with h7 hend
    cases h
    exact .read (wf_read.2 ⟨by omega, Nat.succ_pos _, by omega⟩)
  · cases h

theorem decodeW_eq_ok {i : Instr} {rest : List Byte} (h : decodeW rest = .ok i) : WireForm (opWrite :: rest) i := by
  unfold decodeW at h
  split at h
  · split_ifs at h with h7 hend
    cases h
    exact .write (wf_write.2 ⟨by omega, Nat.succ_pos _, by omega⟩)
  · cases h

theorem decodeM_eq_ok {i : Instr} {rest : List Byte} (h : decodeM rest = .ok i) : WireForm (opBitmod :: rest) i := by
  unfold decodeM at h
  split at h
  · split_ifs at h with h7
    cases h
    exact .bitmod (wf_bitmod.2 (by omega))
  · cases h

theorem wireForm_of_decode {t : List Byte} {i : Instr} (h : decode t = .ok i) : WireForm t i := by
  cases t with
  | nil => cases h
  | cons op rest =>
    simp only [decode] at h
    split_ifs at h with hreset hread hwrite hbitmod h0 h1 h2 hall <;> subst op
    · obtain ⟨rfl, rfl⟩ := decodeZ_eq_ok h; exact .reset
    · exact decodeR_eq_ok h
    · exact decodeW_eq_ok h
    · exact decodeM_eq_ok h
    · obtain ⟨rfl, rfl⟩ := decodeZ_eq_ok h; exact .rtsTxb0
    · obtain ⟨rfl, rfl⟩ := decodeZ_eq_ok h; exact .rtsTxb1
    · obtain ⟨rfl, rfl⟩ := decodeZ_eq_ok h; exact .rtsTxb2
    · obtain ⟨rfl, rfl⟩ := decodeZ_eq_ok h; exact .rtsAll

/-- READ's filler does not matter to the decoder (R96). -/
theorem decodeR_filler {a : Byte} {f g : List Byte} (h : f.length = g.length) :
    decodeR (a :: f) = decodeR (a :: g) := by
  match f, g, h with
  | [], [], _ => rfl
  | _ :: _, _ :: _, h => simp only [decodeR, h]

theorem WireForm.wf {t : List Byte} {i : Instr} (h : WireForm t i) : i.wf = true := by
  cases h with
  | read hi => exact hi
  | write hi => exact hi
  | bitmod hi => exact hi
  | _ => rfl

/-- The encoding of a transaction's instruction is the transaction, READ's filler bytes set to 0x00 (R96, R103). -/
theorem WireForm.encode_eq {t : List Byte} {i : Instr} (h : WireForm t i) :
    (∃ a f, t = opRead :: a :: f ∧ i = .read a.toNat f.length ∧ encode i = opRead :: a :: zeros f.length) ∨
    ((∀ a n, i ≠ .read a n) ∧ encode i = t) := by
  cases h with
  | @read a f _ => exact .inl ⟨a, f, rfl, rfl, by simp [encode, zeros, fillByte]⟩
  | write _ => exact .inr ⟨nofun, by simp [encode]⟩
  | bitmod _ => exact .inr ⟨nofun, by simp [encode]⟩
  | _ => exact .inr ⟨nofun, rfl⟩

theorem decode_of_wireForm {t : List Byte} {i : Instr} (h : WireForm t i) : decode t = .ok i := by
  obtain ⟨a, f, rfl, rfl, henc⟩ | ⟨-, henc⟩ := h.encode_eq
  · calc decode (opRead :: a :: f) = decode (opRead :: a :: zeros f.length) := decodeR_filler (by simp [zeros])
      _ = .ok (.read a.toNat f.length) := henc ▸ decode_encode h.wf
  · exact henc ▸ decode_encode h.wf

theorem decode_eq_ok_iff {t : List Byte} {i : Instr} : decode t = .ok i ↔ WireForm t i :=
  ⟨wireForm_of_decode, decode_of_wireForm⟩

/-- Settles O6: format by format, the address byte reads back as the address. -/
theorem decodeInvertsEncode : Obligations.DecodeInvertsEncode := fun _ hi => decode_encode hi

/-- Settles O7: what decodes has one of the shapes of R101, and the encoder writes that shape. -/
theorem encodeInvertsDecode : Obligations.EncodeInvertsDecode := by
  intro t i h
  have hform := wireForm_of_decode h
  refine ⟨hform.wf, ?_⟩
  obtain ⟨a, f, rfl, rfl, henc⟩ | ⟨hne, henc⟩ := hform.encode_eq
  · refine ⟨fun b n hb => ?_, fun hne => absurd rfl (hne _ _)⟩
    cases hb
    refine ⟨?_, by simp; omega, henc⟩
    rw [BitVec.ofNat_toNat, BitVec.setWidth_eq]
    rfl
  · exact ⟨fun a n hr => absurd hr (hne a n), fun _ => henc⟩

/-! ### An instruction that is not well-formed (R131) -/

theorem exec_illFormed {i : Instr} (hi : i.wf = false) (s : State) : ∃ r, exec i s = .refused r := by
  rw [exec_eq_issue]
  cases hop : operandCheck i with
  | none => simp [(operandCheck_none i).1 hop] at hi
  | some p => exact ⟨problemRefusal p, by simp only [issue, hop]⟩

/-- Settles O8: the shapes of `WireForm` with their bounds written out; the operand check stops what is ill-formed. -/
theorem decodeAcceptsExactlyShapes : Obligations.DecodeAcceptsExactlyShapes := by
  refine ⟨fun t => ?_, fun i hi => ⟨i, decode_encode hi⟩, fun i s hi => exec_illFormed hi s⟩
  simp only [decode_eq_ok_iff]
  constructor
  · rintro ⟨i, h⟩
    cases h with
    | reset => exact .inl rfl
    | rtsTxb0 => exact .inr (.inl rfl)
    | rtsTxb1 => exact .inr (.inr (.inl rfl))
    | rtsTxb2 => exact .inr (.inr (.inr (.inl rfl)))
    | rtsAll => exact .inr (.inr (.inr (.inr (.inl rfl))))
    | @read a f hi =>
      obtain ⟨ha, hn, hend⟩ := wf_read.1 hi
      exact .inr (.inr (.inr (.inr (.inr (.inl ⟨a, f, rfl, hn, by omega, hend⟩)))))
    | @write a d hi =>
      obtain ⟨ha, hn, hend⟩ := wf_write.1 hi
      exact .inr (.inr (.inr (.inr (.inr (.inr (.inl ⟨a, d, rfl, hn, by omega, hend⟩))))))
    | @bitmod a m v hi =>
      have ha := wf_bitmod.1 hi
      exact .inr (.inr (.inr (.inr (.inr (.inr (.inr ⟨a, m, v, rfl, by omega⟩))))))
  · rintro (rfl | rfl | rfl | rfl | rfl | ⟨a, f, rfl, hn, ha, hend⟩ | ⟨a, d, rfl, hn, ha, hend⟩ | ⟨a, m, v, rfl, ha⟩)
    · exact ⟨_, .reset⟩
    · exact ⟨_, .rtsTxb0⟩
    · exact ⟨_, .rtsTxb1⟩
    · exact ⟨_, .rtsTxb2⟩
    · exact ⟨_, .rtsAll⟩
    · exact ⟨_, .read (wf_read.2 ⟨by omega, hn, hend⟩)⟩
    · exact ⟨_, .write (wf_write.2 ⟨by omega, hn, hend⟩)⟩
    · exact ⟨_, .bitmod (wf_bitmod.2 (by omega))⟩

/-! ### An instruction that is carried out (R130) -/

/-- An instruction whose whole effect is not refused is issued once, when nothing interferes, with that effect on the
target and its response (R130, R132 to R144). -/
theorem exec_carried_out {i : Instr} {s u : State} (hq : Quiet s) (hi : i.wf = true) (hu : wholeEffect i s = .ok u) :
    ∃ t, exec i s = .next t ∧ IssuedOnce i s t ∧ SameTarget u t ∧ t.mem = u.mem ∧ t.response = wholeResponse i s := by
  obtain ⟨rx, n, hlen, hissue⟩ := issue_whole hi hq.1 hq.2
  rw [hu] at hissue
  obtain ⟨hout, henv⟩ := wholeEffect_sameOutside hu
  exact ⟨_, (exec_eq_issue i s).trans hissue,
    { block := ⟨hout.cfg, hout.constructed, hout.tp, hout.osc, hout.bitrate, hout.needsReinit, hout.job, hout.wire,
        hout.host, hout.spi, henv, hout.outcomes⟩
      released := rfl
      window := rfl
      trace := ⟨rx, hlen, congrArg (· ++ _) hout.trace⟩ },
    ⟨fun _ => rfl, rfl, rfl, rfl⟩, rfl, rfl⟩

/-- An instruction that requests the buffers of `sel`, when nothing interferes (R143, R144). -/
theorem exec_requests {i : Instr} {sel : Byte} {r : TxRequests} {s : State} (hq : Quiet s) (hi : i.wf = true)
    (hu : wholeEffect i s = .ok (requestTx sel s)) (hresp : wholeResponse i s = [])
    (hr : (requestTx sel s).requested = r) :
    ∃ t, exec i s = .next t ∧ IssuedOnce i s t ∧ t.response = [] ∧ t.requested = r ∧
      t.mem = s.mem ∧ (∀ a, t.reg a = s.reg a) ∧ t.mode = s.mode ∧ t.marks = s.marks := by
  obtain ⟨t, ht, honce, hsame, hmem, hrx⟩ := exec_carried_out hq hi hu
  exact ⟨t, ht, honce, hrx.trans hresp, hsame.requested.trans hr, hmem, hsame.reg, hsame.mode, hsame.marks⟩

/-- Settles O25: each RTS is `requestTx` of its code's low three bits, which touches the requests alone. -/
theorem rtsMarksRequests : Obligations.RtsMarksRequests := by
  intro s hq c hc
  simp only [List.mem_cons, List.not_mem_nil, or_false] at hc
  obtain rfl | rfl | rfl | rfl := hc
  · exact exec_requests (sel := 0x01) hq rfl rfl rfl (by simp)
  · exact exec_requests (sel := 0x02) hq rfl rfl rfl (by simp)
  · exact exec_requests (sel := 0x04) hq rfl rfl rfl (by simp)
  · exact exec_requests (sel := 0x07) hq rfl rfl rfl (by simp)

/-! ### Written-out transactions -/

/-- Settles O5: the ten transactions are closed, and the decoder is run on each. -/
theorem specWordsDecode : Obligations.SpecWordsDecode :=
  ⟨rfl, rfl, rfl, rfl, rfl, rfl, rfl, rfl, rfl, rfl⟩

/-! ### Bytes that are no instruction (R100) -/

theorem decode_reserved {b : Byte} (rest : List Byte)
    (h : b ∉ ([0xC0, 0x03, 0x02, 0x05, 0x81, 0x82, 0x84, 0x87] : List Byte)) :
    decode (b :: rest) = .error (.reservedOpcode b) := by
  simp only [List.mem_cons, List.not_mem_nil, or_false, not_or] at h
  obtain ⟨hreset, hread, hwrite, hbitmod, h0, h1, h2, hall⟩ := h
  exact (if_neg hreset).trans <| (if_neg hread).trans <| (if_neg hwrite).trans <| (if_neg hbitmod).trans <|
    (if_neg h0).trans <| (if_neg h1).trans <| (if_neg h2).trans <| if_neg hall

/-- Every encoding begins with its row's opcode, well-formed or not (R97). -/
theorem encode_eq_cons (i : Instr) : ∃ rest, encode i = Laws.EncodeShape.firstByte i :: rest := by
  cases i <;> exact ⟨_, rfl⟩

theorem firstByte_mem (i : Instr) :
    Laws.EncodeShape.firstByte i ∈ ([0xC0, 0x03, 0x02, 0x05, 0x81, 0x82, 0x84, 0x87] : List Byte) := by
  cases i <;> simp [Laws.EncodeShape.firstByte]

/-- Settles O9: the step refuses with the decoder's reason, and both coders know the eight opcodes alone. -/
theorem invalidTransactionRefused : Obligations.InvalidTransactionRefused := by
  refine ⟨fun s tx why hw hd => ?_, fun b rest hb => decode_reserved rest hb, fun i => ?_⟩
  · simp only [step, hw, hd]
  · obtain ⟨rest, henc⟩ := encode_eq_cons i
    exact ⟨_, rest, henc, firstByte_mem i⟩

/-! ### The words of the opcode table (R97) -/

/-- A step with an instruction's bytes offered executes it, the bytes taken off the wire (R130). -/
theorem step_of_decode {s : State} {tx : List Byte} {i : Instr} (hw : s.wire = some tx) (hd : decode tx = .ok i) :
    step s = exec i (s.setWire none) := by
  simp only [step, hw, hd]

theorem decode_tableBytes {nbits w : Nat} {i : Instr} (h : decodeTableWord nbits w = some i) :
    decode (tableBytes nbits w) = .ok i := by
  unfold decodeTableWord at h
  split at h
  · rename_i j hd; cases h; exact hd
  · cases h

/-- Settles O10: the eight words are closed; the step finds the word's bytes on the wire. -/
theorem tableWordRuns : Obligations.TableWordRuns :=
  ⟨rfl, rfl, rfl, rfl, rfl, rfl, rfl, rfl, fun _ _ _ _ h => step_of_decode rfl (decode_tableBytes h)⟩

end Sys2Proof.Machine
end

section
/-! SUPPORT. The operand checks of R131 and R300: an instruction or a command with an operand outside its set is refused
with the reason the rules name (O14, O23), and the step runs what the offered bytes decode to (O11). -/

namespace Sys2Proof.Machine

open Sys2Proof.Safety

/-- Settles O11: the bytes are taken off the wire and decoded. -/
theorem stepRunsDecoded : Obligations.StepRunsDecoded := fun _ _ _ hw hd => step_of_decode hw hd

/-! ### The operand check, instruction by instruction (R131, R308) -/

theorem operandCheck_read_address {a : Nat} (n : Nat) (h : a > 0x7F) :
    operandCheck (.read a n) = some .address := if_pos h

theorem operandCheck_read_length {a n : Nat} (ha : a ≤ 0x7F) (h : n = 0 ∨ a + n > 0x80) :
    operandCheck (.read a n) = some .length := by
  have hin : ¬ a ≥ regCount := by simp only [regCount]; omega
  exact (if_neg hin).trans (if_pos h)

theorem operandCheck_write_address {a : Nat} (d : List Byte) (h : a > 0x7F) :
    operandCheck (.write a d) = some .address := if_pos h

theorem operandCheck_write_length {a : Nat} {d : List Byte} (ha : a ≤ 0x7F) (h : d = [] ∨ a + d.length > 0x80) :
    operandCheck (.write a d) = some .length := by
  have hin : ¬ a ≥ regCount := by simp only [regCount]; omega
  rw [← List.length_eq_zero_iff] at h
  exact (if_neg hin).trans (if_pos h)

theorem operandCheck_bitmod_address {a : Nat} (m v : Byte) (h : a > 0x7F) :
    operandCheck (.bitmod a m v) = some .address := if_pos h

/-! ### An instruction -/

theorem exec_operand_refused {i : Instr} {p : OperandProblem} (h : operandCheck i = some p) (s : State) :
    exec i s = .refused (problemRefusal p) := by
  simp only [exec_eq_issue, issue, h]

/-- Settles O23: `issue` checks the operands before it does anything else. -/
theorem illFormedRefused : Obligations.IllFormedRefused := fun s =>
  ⟨fun _ n h => exec_operand_refused (operandCheck_read_address n h) s,
    fun _ _ ha h => exec_operand_refused (operandCheck_read_length ha h) s,
    fun _ d h => exec_operand_refused (operandCheck_write_address d h) s,
    fun _ _ ha h => exec_operand_refused (operandCheck_write_length ha h) s,
    fun _ m v h => exec_operand_refused (operandCheck_bitmod_address m v h) s⟩

/-! ### A command -/

theorem acceptWire_refused {i : Instr} {p : OperandProblem} (h : operandCheck i = some p) (f : Finish) (s : State) :
    acceptWire i f s = refuseCommand (problemReason p) s := by
  simp only [acceptWire, h]

theorem rxBufOf_none {n : Nat} (h : n > 1) : rxBufOf n = none := by
  rw [rxBufOf, if_neg (by omega), if_neg (by omega)]

theorem txBufOf_none {n : Nat} (h : n > 2) : txBufOf n = none := by
  rw [txBufOf, if_neg (by omega), if_neg (by omega), if_neg (by omega)]

theorem encodeFrame_none (c : Cfg) {f : CanFrame} (h : f.wf = false) : encodeFrame c f = none := by
  simp [encodeFrame, h]

theorem packCNF_none {tp : TimingParameters} (h : tp.wf = false) : packCNF tp = none := by
  simp [packCNF, h]

/-- `send` of a frame that does not encode is refused for the buffer or, past that check, for the frame (R308). -/
theorem acceptSend_badFrame {f : CanFrame} {n : Nat} (hn : ¬ n > 2) (hf : f.wf = false) (s : State) :
    acceptSend f n s = refuseCommand .badFrame s := by
  have hbuf : ∃ b, txBufOf n = some b := by
    obtain rfl | rfl | rfl : n = 0 ∨ n = 1 ∨ n = 2 := by omega
    · exact ⟨.txb0, rfl⟩
    · exact ⟨.txb1, rfl⟩
    · exact ⟨.txb2, rfl⟩
  obtain ⟨b, hb⟩ := hbuf
  simp only [acceptSend, hb, encodeFrame_none _ hf]

/-- A command that a constructed, idle block refuses changes nothing but the outcomes (R300). -/
theorem step_refuses {c : Command} {r : RefuseReason} {s : State} {es : List HostEvent} (hp : Presents c es s)
    (hcon : s.constructed = true) (hr : acceptOpen c (taking es s) = .next (refuseCommand r (taking es s))) :
    step s = .next { s with host := es, response := [], outcomes := s.outcomes ++ [.refused r] } := by
  rw [step_presents hp, acceptCommand_open (.inl (show (taking es s).constructed = true from hcon)), hr, refuseCommand,
    deliver_idle _ (show (taking es s).job = none from hp.1.1)]
  rfl

/-- Settles O14: each command's own check finds the operand, the address before the length and the buffer before the
frame. -/
theorem hostRefusals : Obligations.HostRefusals := by
  intro s c es r hp hcon hbad
  refine step_refuses hp hcon ?_
  obtain ⟨a, n, rfl, h⟩ | ⟨a, d, rfl, h⟩ | ⟨a, m, v, rfl, ha, rfl⟩ | ⟨n, rfl, hn, rfl⟩ | ⟨n, rfl, hn, rfl⟩ |
    ⟨n, rfl, hn, rfl⟩ | ⟨f, n, rfl, h⟩ | ⟨f, rfl, hf, rfl⟩ | ⟨tp, rfl, htp, rfl⟩ := hbad
  · split at h
    · subst h
      exact congrArg _ (acceptWire_refused (operandCheck_read_address n ‹_›) _ _)
    · obtain ⟨hn, rfl⟩ := h
      exact congrArg _ (acceptWire_refused (operandCheck_read_length (by omega) hn) _ _)
  · split at h
    · subst h
      exact congrArg _ (acceptWire_refused (operandCheck_write_address d ‹_›) _ _)
    · obtain ⟨hd, rfl⟩ := h
      exact congrArg _ (acceptWire_refused (operandCheck_write_length (by omega) hd) _ _)
  · exact congrArg _ (acceptWire_refused (operandCheck_bitmod_address m v ha) _ _)
  · simp only [acceptOpen, acceptRts, rtsOperand, txBufOf_none hn, Option.map_none]
  · simp only [acceptOpen, acceptReceive, rxBufOf_none hn]
  · simp only [acceptOpen, acceptClearRxFlag, rxBufOf_none hn]
  · split at h
    · rename_i hn
      subst h
      simp only [acceptOpen, acceptSend, txBufOf_none hn]
    · rename_i hn
      obtain ⟨hf, rfl⟩ := h
      exact congrArg _ (acceptSend_badFrame hn hf _)
  · simp only [acceptOpen, acceptEncodeFrame, encodeFrame_none _ hf]
  · simp only [acceptOpen, acceptPackCNF, packCNF_none htp]

end Sys2Proof.Machine
end

section
/-! SUPPORT. The effect of one instruction when nothing interferes: READ, WRITE, BITMOD, RESET and a failed exchange (O17,
O18, O19, O20, O21, O24, O26, O28). -/

namespace Sys2Proof.Machine

open Sys2Proof.Safety

/-- Settles O26: an instruction has its whole-transaction effect, and is refused where that is. -/
theorem wireMatchesWhole : Obligations.WireMatchesWhole := fun _ _ hq hi =>
  ⟨fun _ hr => exec_refused hq hi hr, fun _ hu => exec_carried_out hq hi hu⟩

/-! ### READ -/

/-- Each byte read of an unnamed address is a byte drawn by this burst (R63, R66). -/
theorem memRead_unnamed {a n : Nat} {s : State} {k : Nat} (hk : k < n) (hn : isNamed s.cfg (a + k) = false) :
    ∃ j, s.draws ≤ j ∧ j < (memRead a n s).2.draws ∧ (memRead a n s).1[k]? = some (Config.freeByte j) := by
  induction n generalizing a s k with
  | zero => omega
  | succ n ih =>
    cases k with
    | zero =>
      have hsample : sampleReg a s = drawByte s := by
        rw [sampleReg, if_neg (by simpa using hn)]
      obtain ⟨m, hm⟩ := memRead_snd (a + 1) n (drawByte s).2
      refine ⟨s.draws, Nat.le_refl _, ?_, by simp only [memRead, hsample]; rfl⟩
      simp only [memRead, hsample, hm, drawByte_draws]
      omega
    | succ k =>
      have hle : s.draws ≤ (sampleReg a s).2.draws := by
        obtain h | h := sampleReg_snd a s
        · rw [h]
        · rw [h]; exact Nat.le_succ _
      have hcfg : (sampleReg a s).2.cfg = s.cfg := by
        obtain h | h := sampleReg_snd a s <;> rw [h]; rfl
      obtain ⟨j, hlow, hhigh, hj⟩ := ih (a := a + 1) (s := (sampleReg a s).2) (Nat.lt_of_succ_lt_succ hk)
        (by rwa [hcfg, show a + 1 + k = a + (k + 1) by omega])
      exact ⟨j, hle.trans hlow, hhigh, hj⟩

/-- A READ draws the free bytes of its opcode, of its address and of its burst (R63, R148). -/
theorem exec_read_draws {s t : State} {a n : Nat} (hq : Quiet s) (h : exec (.read a n) s = .next t) :
    t.draws = (memRead a n (drawByte (drawByte s).2).2).2.draws := by
  obtain ⟨henv, hspi⟩ := hq
  rw [exec_eq_issue] at h
  obtain ⟨hi, rx, u, hu, -, rfl⟩ := issue_next h
  obtain ⟨ha, -, hend⟩ := wf_read.1 hi
  have hv : nextVerdict s = (.ok, s) := by simp only [nextVerdict, hspi]
  have hb : (BitVec.ofNat 8 a).toNat = a := getLsb_address ha
  obtain ⟨bs, k, hburst⟩ := memRead_rewindow a n (s.draws + 2) s
  have hclock : clockBytes (encode (.read a n)) (openWindow s) =
      .ok (Config.freeByte s.draws :: Config.freeByte (s.draws + 1) :: bs,
        rewindow .asserted (some ⟨2 + n, opRead, a + n, 0⟩) (s.draws + 2 + k) s) := by
    rw [encode, List.cons_append, List.singleton_append,
      clockBytes_header _ henv rfl (by rw [hb]; exact ha),
      clockBytes_read (w := ⟨2, opRead, (BitVec.ofNat 8 a).toNat, 0⟩) _ (by simpa using henv) rfl rfl (Nat.le_refl 2)
        (by rw [hb, List.length_replicate]; exact hend)]
    simp only [hb, List.length_replicate, hburst]
    rfl
  simp only [hv, sentBytes, hclock] at hu
  cases hu
  have hdrawn : (drawByte (drawByte s).2).2 = rewindow s.cs s.window (s.draws + 2) s := rfl
  rw [hdrawn, hburst, hv]
  rfl

/-- Settles O17: the response is `MemRead` of the burst, and the rest of the target is as it was. -/
theorem readReturnsRegisters : Obligations.ReadReturnsRegisters := by
  intro s a n hq ha hn hend
  obtain ⟨t, ht, honce, hsame, hmem, hresp⟩ := exec_carried_out (i := .read a n) hq (wf_read.2 ⟨ha, hn, hend⟩) rfl
  refine ⟨t, ht, honce, hsame, hmem, ?_, fun k hk => ⟨fun hnamed => ?_, fun hunnamed => ?_⟩⟩
  · rw [hresp]
    exact memRead_length _ _ _
  · rw [hresp]
    exact memRead_named (s := (drawByte (drawByte s).2).2) hk hnamed
  · obtain ⟨j, hlow, hhigh, hj⟩ := memRead_unnamed (s := (drawByte (drawByte s).2).2) hk hunnamed
    exact ⟨j, (Nat.le_add_right s.draws 2).trans hlow, by rwa [exec_read_draws hq ht], by rwa [hresp]⟩

/-! ### WRITE and BITMOD of registers that request no mode -/

/-- Settles O18: a burst of plain stores. -/
theorem writeStoresBytes : Obligations.WriteStoresBytes := by
  intro s a d hq ha hd hend hplain
  obtain ⟨u, hu, hmode, hrequested, hmarks, hreg⟩ := memWrite_plain hplain
  obtain ⟨t, ht, honce, hsame, -, hresp⟩ := exec_carried_out hq (wf_write.2 ⟨ha, hd, hend⟩) (i := .write a d) hu
  exact ⟨t, ht, honce, hresp, hsame.mode.trans hmode, hsame.requested.trans hrequested, hsame.marks.trans hmarks,
    fun x => (hsame.reg x).trans (hreg x)⟩

/-- A BITMOD of a protected register outside Config is discarded, and marked if its mask selects a bit (R302). -/
theorem modifyReg_protected {s : State} {a : Nat} (m v : Byte) (hp : isProtected s.cfg a = true ∧ s.mode ≠ .config) :
    modifyReg a m v s = .ok (if m = 0 then s else s.mark (.protectedWrite a)) := by
  rw [modifyReg, if_pos (by simpa using hp)]
  split <;> rfl

/-- Settles O20: the register is protected and keeps its value, or it is writable and its masked bits are replaced. -/
theorem bitmodModifiesRegister : Obligations.BitmodModifiesRegister := by
  intro s a m v hq _ ha hstat hnamed hfield
  have hi : (Instr.bitmod a m v).wf = true := wf_bitmod.2 ha
  by_cases hp : isProtected s.cfg a = true ∧ s.mode ≠ .config
  · obtain ⟨t, ht, honce, hsame, -, hresp⟩ := exec_carried_out hq hi (modifyReg_protected m v hp)
    refine ⟨t, ht, honce, hresp, ?_, ?_, ?_⟩
    · rw [hsame.mode]; split <;> rfl
    · rw [hsame.requested]; split <;> rfl
    · rw [if_pos hp, hsame.marks]
      refine ⟨fun x => ?_, ?_⟩
      · rw [hsame.reg]; split <;> rfl
      · split
        · exact (List.append_nil _).symm
        · rfl
  · obtain ⟨t, ht, honce, hsame, -, hresp⟩ := exec_carried_out hq hi (modifyReg_writable ⟨hstat, hnamed, hp⟩ hfield)
    refine ⟨t, ht, honce, hresp, hsame.mode, hsame.requested, ?_⟩
    rw [if_neg hp]
    exact ⟨fun x => (hsame.reg x).trans (reg_setReg s a x _), hsame.marks⟩

/-! ### Requesting a mode -/

/-- Six different patterns (R231): a pattern is that of one mode. -/
theorem modePattern_injective {c : Cfg} (h : c.wf = true) {m n : OperatingMode}
    (hmn : modePattern c m = modePattern c n) : m = n := by
  have hnodup : ([.normal, .sleep, .loopback, .listenOnly, .config, .powerUp].map (modePattern c)).Nodup := by
    unfold Cfg.wf at h
    simp only [Bool.and_eq_true, decide_eq_true_eq] at h
    tauto
  have hmem : ∀ m, m ∈ [OperatingMode.normal, .sleep, .loopback, .listenOnly, .config, .powerUp] := by
    intro m; cases m <;> decide
  exact List.inj_on_of_nodup_map hnodup (hmem m) (hmem n) hmn

theorem modeOf_none {c : Cfg} {p : Byte} (h : modeOf c p = none) (m : OperatingMode) : p ≠ modePattern c m := by
  unfold modeOf at h
  split_ifs at h
  cases m <;> assumption

theorem modeOf_modePattern {c : Cfg} (h : c.wf = true) (m : OperatingMode) : modeOf c (modePattern c m) = some m := by
  cases hm : modeOf c (modePattern c m) with
  | none => exact absurd rfl (modeOf_none hm m)
  | some n => rw [modePattern_injective h (modeOf_some hm)]

/-- The target when the byte `b`, stored in the control register, has requested the mode `req` (R234). -/
def controlStored (b : Byte) (req : OperatingMode) (s : State) : State :=
  if modeGrant s.cfg s.mode req then (s.setReg s.cfg.ctrlAddr b).enterMode req else s.setReg s.cfg.ctrlAddr b

/-- A store to the control register whose mode field is a mode's pattern (R234). -/
theorem modeRequest_controlStored {s : State} {b : Byte} {req : OperatingMode} (hc : s.cfg.wf = true)
    (h : b &&& modeMask = modePattern s.cfg req) :
    modeRequest (b &&& modeMask) (s.setReg s.cfg.ctrlAddr b) = .ok (controlStored b req s) := by
  simp only [modeRequest, setReg_cfg, setReg_mode, h, modeOf_modePattern hc, controlStored]
  exact (apply_ite Except.ok _ _ _).symm

theorem modeRequest_refused {s : State} {p : Byte} (h : ∀ req, p ≠ modePattern s.cfg req) :
    modeRequest p s = .error (.noSuchMode p) := by
  cases hm : modeOf s.cfg p with
  | none => simp only [modeRequest, hm]
  | some req => exact absurd (modeOf_some hm).symm (h req)

theorem ctrl_unprotected {c : Cfg} (hc : c.wf = true) : isProtected c c.ctrlAddr = false :=
  spare_unprotected (wf_spare hc).2.1

theorem ctrl_named (c : Cfg) : isNamed c c.ctrlAddr = true := by simp [isNamed]

theorem writable_ctrl {s : State} (hc : s.cfg.wf = true) : Writable s s.cfg.ctrlAddr :=
  ⟨(wf_spare hc).1, ctrl_named _, by simp [ctrl_unprotected hc]⟩

/-- A store that takes effect: the byte, and for the control register the mode request (R67, R234). -/
theorem storeReg_writable {s : State} {a : Nat} (v : Byte) (hw : Writable s a) :
    storeReg a v s =
      if a = s.cfg.ctrlAddr then modeRequest (v &&& modeMask) (s.setReg a v) else .ok (s.setReg a v) := by
  obtain ⟨hstat, hnamed, hprot⟩ := hw
  rw [storeReg, if_neg (by simpa using hprot), if_neg hstat, if_neg (by simp [hnamed])]

theorem storeReg_ctrl {s : State} (v : Byte) (hc : s.cfg.wf = true) :
    storeReg s.cfg.ctrlAddr v s = modeRequest (v &&& modeMask) (s.setReg s.cfg.ctrlAddr v) := by
  rw [storeReg_writable v (writable_ctrl hc), if_pos rfl]

theorem modifyReg_ctrl {s : State} {m : Byte} (v : Byte) (hc : s.cfg.wf = true) (hm : m &&& modeMask ≠ 0) :
    modifyReg s.cfg.ctrlAddr m v s =
      modeRequest (bitModify (s.reg s.cfg.ctrlAddr) m v &&& modeMask)
        (s.setReg s.cfg.ctrlAddr (bitModify (s.reg s.cfg.ctrlAddr) m v)) := by
  obtain ⟨hstat, hnamed, hprot⟩ := writable_ctrl hc
  rw [modifyReg, if_neg (by simpa using hprot), if_neg hstat, if_neg (by simp [hnamed]), if_pos ⟨rfl, hm⟩,
    modeFieldAfter_eq]

/-- What a store of `b` to the control register that requests the mode `req` makes of the target: the mode and the
status register change if it is granted, and nothing else does but the register itself (R234). -/
structure ModeRequested (b : Byte) (req : OperatingMode) (s t : State) : Prop where
  requested : t.requested = s.requested
  marks : t.marks = s.marks
  ctrl : t.reg s.cfg.ctrlAddr = b
  granted : if modeGrant s.cfg s.mode req then
      t.mode = req ∧ t.reg s.cfg.statAddr = (s.reg s.cfg.statAddr &&& 0x1F) ||| modePattern s.cfg req
    else t.mode = s.mode ∧ t.reg s.cfg.statAddr = s.reg s.cfg.statAddr
  others : ∀ x, x ≠ s.cfg.ctrlAddr → x ≠ s.cfg.statAddr → t.reg x = s.reg x

theorem modeRequested_controlStored {s : State} (b : Byte) (req : OperatingMode) (hc : s.cfg.wf = true) :
    ModeRequested b req s (controlStored b req s) := by
  have hne := (wf_spare hc).1
  have hstat := reg_setReg_other s b hne.symm
  unfold controlStored
  split
  · rename_i hg
    have hother := fun x (hx : x ≠ s.cfg.statAddr) =>
      reg_enterMode_other (s := s.setReg s.cfg.ctrlAddr b) (m := req) hx
    refine ⟨rfl, rfl, (hother _ hne).trans (reg_setReg_self s _ b), ?_, fun x hx hx' =>
      (hother x hx').trans (reg_setReg_other s b hx)⟩
    rw [if_pos hg]
    refine ⟨rfl, ?_⟩
    rw [reg_enterMode, setReg_cfg, if_pos rfl, hstat, showMode, show ~~~modeMask = 0x1F by decide]
  · rename_i hg
    refine ⟨rfl, rfl, reg_setReg_self s _ b, ?_, fun x hx _ => reg_setReg_other s b hx⟩
    rw [if_neg hg]
    exact ⟨rfl, hstat⟩

theorem ModeRequested.congr {b : Byte} {req : OperatingMode} {s u t : State} (h : ModeRequested b req s u)
    (hsame : SameTarget u t) : ModeRequested b req s t := by
  obtain ⟨hreg, hmode, hrequested, hmarks⟩ := hsame
  refine ⟨hrequested.trans h.requested, hmarks.trans h.marks, (hreg _).trans h.ctrl, ?_,
    fun x hx hx' => (hreg x).trans (h.others x hx hx')⟩
  rw [hmode, hreg]
  exact h.granted

section ModeRequest

variable {i : Instr} {s : State} {b : Byte} (hq : Quiet s) (hi : i.wf = true)
  (hu : wholeEffect i s = modeRequest (b &&& modeMask) (s.setReg s.cfg.ctrlAddr b))
include hq hi hu

/-- An instruction that stores `b` in the control register and with it requests a mode (R234). -/
theorem exec_requests_mode {req : OperatingMode} (hc : s.cfg.wf = true)
    (hreq : b &&& modeMask = modePattern s.cfg req) :
    ∃ t, exec i s = .next t ∧ IssuedOnce i s t ∧ t.response = wholeResponse i s ∧ ModeRequested b req s t := by
  obtain ⟨t, ht, honce, hsame, -, hresp⟩ := exec_carried_out hq hi (hu.trans (modeRequest_controlStored hc hreq))
  exact ⟨t, ht, honce, hresp, (modeRequested_controlStored b req hc).congr hsame⟩

theorem exec_requests_no_mode (hreq : ∀ req, b &&& modeMask ≠ modePattern s.cfg req) :
    exec i s = .refused (.noSuchMode (b &&& modeMask)) :=
  exec_refused hq hi (hu.trans (modeRequest_refused hreq))

end ModeRequest

theorem wholeEffect_write_byte (a : Nat) (v : Byte) (s : State) : wholeEffect (.write a [v]) s = storeReg a v s := by
  simp only [wholeEffect, memWrite]
  cases storeReg a v s <;> rfl

/-- Settles O19: the one byte is stored in the control register and requests the mode. -/
theorem writeControlRegister : Obligations.WriteControlRegister := by
  intro s v hq hc
  have haddr : s.cfg.ctrlAddr < 128 := spare_lt (wf_spare hc).2.1
  have hi : (Instr.write s.cfg.ctrlAddr [v]).wf = true := wf_write.2 ⟨haddr, Nat.le_refl 1, haddr⟩
  have hu := (wholeEffect_write_byte _ v s).trans (storeReg_ctrl v hc)
  refine ⟨fun req hreq => ?_, fun hreq => exec_requests_no_mode hq hi hu hreq⟩
  obtain ⟨t, ht, honce, -, hrequested, hmarks, hctrl, hgranted, hothers⟩ := exec_requests_mode hq hi hu hc hreq
  exact ⟨t, ht, honce, hrequested, hmarks, hctrl, hgranted, hothers⟩

/-- Settles O21: the modified byte is stored in the control register and requests the mode. -/
theorem bitmodModeRequest : Obligations.BitmodModeRequest := by
  intro s m v hq hc hm
  have hi : (Instr.bitmod s.cfg.ctrlAddr m v).wf = true := wf_bitmod.2 (spare_lt (wf_spare hc).2.1)
  have hu : wholeEffect (.bitmod s.cfg.ctrlAddr m v) s = _ := modifyReg_ctrl v hc hm
  refine ⟨fun req hreq => ?_, fun hreq => exec_requests_no_mode hq hi hu hreq⟩
  obtain ⟨t, ht, honce, hresp, hrequested, hmarks, hctrl, hgranted, hothers⟩ := exec_requests_mode hq hi hu hc hreq
  exact ⟨t, ht, honce, hresp, hrequested, hmarks, hctrl, hgranted, hothers⟩

/-! ### RESET -/

/-- Settles O24: RESET leaves `powerUpByte` in every register, which is the image but for the mode shown. -/
theorem resetRestoresImage : Obligations.ResetRestoresImage := by
  intro s hq hc
  obtain ⟨t, ht, honce, hsame, -, hresp⟩ := exec_carried_out (i := .reset) hq rfl rfl
  refine ⟨t, ht, honce, hresp, hsame.mode, hsame.requested, hsame.marks, fun a ha => ?_, ?_⟩
  · rw [hsame.reg, reg_targetReset, powerUpByte, if_neg ha]
  · have hp : s.cfg.patPowerUp &&& modeMask = s.cfg.patPowerUp := and_modeMask_eq (wf_pattern hc .powerUp)
    rw [hsame.reg, reg_targetReset, powerUpByte, if_pos rfl, hp, show ~~~modeMask = 0x1F by decide]

/-! ### A failed exchange -/

/-- What the first bytes of an instruction leave alone (R145). -/
theorem prefixEffect_sameOutside {i : Instr} {k : Nat} {s u : State} (h : prefixEffect i k s = .ok u) :
    SameOutside s u ∧ u.env = s.env := by
  by_cases hk : (encode i).length ≤ k
  · exact wholeEffect_sameOutside ((whole_prefix i k s hk).symm.trans h)
  cases i with
  | write a d => exact ⟨memWrite_sameOutside h, (memWrite_rest h).2.2.1⟩
  | bitmod a m v =>
    have hk4 : ¬ k ≥ 4 := hk
    rw [prefixEffect, if_neg hk4] at h
    cases h
    exact ⟨SameOutside.refl _, rfl⟩
  | read a n => cases h; exact ⟨SameOutside.refl _, rfl⟩
  | _ =>
    have hk1 : ¬ k ≥ 1 := hk
    rw [prefixEffect, if_neg hk1] at h
    cases h
    exact ⟨SameOutside.refl _, rfl⟩

/-- Settles O28: the bytes that arrived have had their effect, and the end of the exchange raises TransportFailure. -/
theorem failedExchangeAppliesPrefix : Obligations.FailedExchangeAppliesPrefix := by
  intro i s u k vs henv hspi hi hu
  have hv : nextVerdict s = (.fail k, s.setSpi vs) := by simp only [nextVerdict, hspi]
  obtain ⟨rx, w, d, hlen, -, hissue⟩ := issue_quiet hi henv
  simp only [hv, receivedCount, hu, returnedBytes, concludeIssue, sentBytes] at hlen hissue
  obtain ⟨hout, henv'⟩ := prefixEffect_sameOutside hu
  refine ⟨_, (exec_eq_issue i s).trans hissue, ⟨fun _ => rfl, rfl, rfl, rfl⟩, rfl, rfl, Bool.or_true _, rfl, rfl, ?_,
    rfl, hout.constructed, hout.tp, hout.osc, hout.bitrate, hout.cfg, hout.host, hout.spi, henv'.trans henv,
    rx, hlen, congrArg (· ++ _) hout.trace⟩
  exact congrArg (· ++ [CmdOutcome.error (.transportFailure i)]) hout.outcomes

end Sys2Proof.Machine
end

section
/-! SUPPORT. The laws of R149: O31 to O35. -/

namespace Sys2Proof.Machine

open Sys2Proof.Safety

/-! ### Two instructions, one after the other -/

theorem sameTarget_symm {s t : State} (h : SameTarget s t) : SameTarget t s :=
  ⟨fun x => (h.reg x).symm, h.mode.symm, h.requested.symm, h.marks.symm⟩

theorem sameTarget_trans {s t u : State} (h : SameTarget s t) (k : SameTarget t u) : SameTarget s u :=
  ⟨fun x => (k.reg x).trans (h.reg x), k.mode.trans h.mode, k.requested.trans h.requested, k.marks.trans h.marks⟩

theorem regsAt_congr {s t : State} (h : SameTarget s t) (a n : Nat) : regsAt t a n = regsAt s a n := by
  simp only [regsAt, h.reg]

/-- Two instructions issued one after the other without interference have the effect of the second on what the first
leaves (R149 b). -/
theorem exec_two {i j : Instr} {s u w : State} (hq : Quiet s) (hi : i.wf = true) (hj : j.wf = true)
    (hu : wholeEffect i s = .ok u) (hw : wholeEffect j u = .ok w) :
    ∃ t v, exec i s = .next t ∧ exec j t = .next v ∧ t.cfg = s.cfg ∧ SameTarget u t ∧ SameTarget w v ∧
      t.response = wholeResponse i s ∧ v.response = wholeResponse j t := by
  obtain ⟨t, ht, honce, hsame, hmem, hresp⟩ := exec_carried_out hq hi hu
  have hcfg : t.cfg = u.cfg := honce.block.cfg.trans (wholeEffect_sameOutside hu).1.cfg.symm
  have htarget : t = withTarget u t := by
    simp only [withTarget, ← hcfg, ← hmem, ← hsame.mode, ← hsame.requested, ← hsame.marks]
  have hw' : wholeEffect j t = .ok (withTarget w t) := by
    rw [htarget, wholeEffect_withTarget, hw]
    rfl
  have hq' : Quiet t := ⟨honce.block.env.trans hq.1, honce.block.spi.trans hq.2⟩
  obtain ⟨v, hv, -, ⟨hreg, hmode, hrequested, hmarks⟩, -, hresp'⟩ := exec_carried_out hq' hj hw'
  exact ⟨t, v, ht, hv, honce.block.cfg, hsame, ⟨hreg, hmode, hrequested, hmarks⟩, hresp, hresp'⟩

/-- A READ of named registers after an instruction returns them as the instruction leaves them (R66, R149). -/
theorem exec_then_read {i : Instr} {s u : State} {a n : Nat} (hq : Quiet s) (hi : i.wf = true)
    (hr : (Instr.read a n).wf = true) (hnamed : ∀ k, k < n → isNamed s.cfg (a + k) = true)
    (hu : wholeEffect i s = .ok u) :
    ∃ t v, exec i s = .next t ∧ exec (.read a n) t = .next v ∧ SameTarget u t ∧ t.response = wholeResponse i s ∧
      v.response = regsAt u a n := by
  obtain ⟨t, v, ht, hv, hcfg, hsame, -, hresp, hresp'⟩ := exec_two (j := .read a n) hq hi hr hu rfl
  refine ⟨t, v, ht, hv, hsame, hresp, ?_⟩
  rw [hresp', wholeResponse_named (hcfg ▸ hnamed), regsAt_congr hsame]

/-! ### READ (R149 c) -/

theorem regsAt_append (s : State) (a m n : Nat) : regsAt s a (m + n) = regsAt s a m ++ regsAt s (a + m) n := by
  simp only [regsAt, List.range_add, List.map_append, List.map_map, Function.comp_def, Nat.add_assoc]

/-- Settles O33: a READ leaves the registers, and its response is the registers. -/
theorem readSplits : Obligations.ReadSplits := by
  intro s a m n hq hm hn hend hnamed
  have hwhole : (Instr.read a (m + n)).wf = true := wf_read.2 ⟨by omega, by omega, by omega⟩
  have hfirst : (Instr.read a m).wf = true := wf_read.2 ⟨by omega, hm, by omega⟩
  have hsecond : (Instr.read (a + m) n).wf = true := wf_read.2 ⟨by omega, hn, by omega⟩
  obtain ⟨t, ht, -, -, -, hresp⟩ := exec_carried_out hq hwhole rfl
  obtain ⟨u, v, hu, hv, -, hrespu, hrespv⟩ := exec_then_read hq hfirst hsecond
    (fun k hk => by rw [Nat.add_assoc]; exact hnamed (m + k) (by omega)) rfl
  refine ⟨t, u, v, ht, hu, hv, ?_⟩
  rw [hresp, hrespu, hrespv, wholeResponse_named hnamed, wholeResponse_named fun k hk => hnamed k (by omega),
    regsAt_append]

/-! ### WRITE (R149 a, b) -/

/-- Settles O32: `MemWrite` of the whole is that of the first part and then of the second. -/
theorem writeSplits : Obligations.WriteSplits := by
  intro s t a d e hq hi hd he ht
  obtain ⟨ha, -, hend⟩ := wf_write.1 hi
  have hdlen := List.length_pos_iff.2 hd
  have helen := List.length_pos_iff.2 he
  rw [List.length_append] at hend
  have hfirst : (Instr.write a d).wf = true := wf_write.2 ⟨ha, hdlen, by omega⟩
  have hsecond : (Instr.write (a + d.length) e).wf = true := wf_write.2 ⟨by omega, helen, by omega⟩
  cases hw : wholeEffect (.write a (d ++ e)) s with
  | error r => simp [exec_refused hq hi hw] at ht
  | ok w =>
    obtain ⟨t', ht', -, hsame, -, -⟩ := exec_carried_out hq hi hw
    obtain rfl : t' = t := by simpa [ht'] using ht
    have hparts := (memWrite_append a d e s).symm.trans hw
    cases hu : memWrite a d s with
    | error r => rw [hu] at hparts; cases hparts
    | ok u =>
      rw [hu] at hparts
      obtain ⟨p, v, hp, hv, -, -, hsame', -, -⟩ := exec_two hq hfirst hsecond hu hparts
      exact ⟨p, v, hp, hv, sameTarget_trans (sameTarget_symm hsame) hsame'⟩

/-- Every byte of a WRITE takes effect: its register is writable, and a byte for the control register requests a mode and
does not make the registers after it protected (R62, R149 a). -/
def TakesEffect (s : State) (a : Nat) (d : List Byte) : Prop :=
  ∀ k, k < d.length → Writable s (a + k) ∧
    (a + k = s.cfg.ctrlAddr → ∃ req, d.getD k 0 &&& modeMask = modePattern s.cfg req ∧
      (modeGrant s.cfg s.mode req = true → req ≠ s.mode →
        ∀ j, k < j → j < d.length → isProtected s.cfg (a + j) = false))

/-- The byte stored is in its register, a mode request included (R67, R234). -/
theorem storeReg_reg_self {s t : State} {a : Nat} {v : Byte} (hw : Writable s a) (h : storeReg a v s = .ok t) :
    t.reg a = v := by
  obtain ⟨hp, hm, -⟩ | ⟨-, hs, -, rfl | ⟨-, req, -, -, rfl⟩⟩ := storeReg_ok h
  · exact absurd ⟨hp, hm⟩ hw.2.2
  · exact reg_setReg_self s a v
  · exact (reg_enterMode_other (s := s.setReg a v) hs).trans (reg_setReg_self s a v)

/-- A burst leaves the registers before it but for the status register. -/
theorem memWrite_reg_before {s t : State} {a x : Nat} {d : List Byte} (hx : x < a) (hs : x ≠ s.cfg.statAddr)
    (h : memWrite a d s = .ok t) : t.reg x = s.reg x := by
  induction d generalizing a s with
  | nil => cases h; rfl
  | cons v d ih =>
    simp only [memWrite] at h
    split at h
    · cases h
    · rename_i u hu
      have hcfg := (storeReg_sameOutside hu).cfg
      exact (ih (by omega) (hcfg ▸ hs) h).trans (storeReg_reg_other hu (by omega) hs)

/-- The first byte of a WRITE that takes effect. -/
theorem TakesEffect.head {s : State} {a : Nat} {v : Byte} {d : List Byte} (h : TakesEffect s a (v :: d)) :
    Writable s a ∧ (a = s.cfg.ctrlAddr → ∃ req, v &&& modeMask = modePattern s.cfg req ∧
      (modeGrant s.cfg s.mode req = true → req ≠ s.mode →
        ∀ j, j < d.length → isProtected s.cfg (a + 1 + j) = false)) := by
  obtain ⟨hw, hreq⟩ := h 0 (Nat.succ_pos _)
  refine ⟨hw, fun hctrl => ?_⟩
  obtain ⟨req, hpat, hafter⟩ := hreq hctrl
  refine ⟨req, hpat, fun hg hne j hj => ?_⟩
  rw [show a + 1 + j = a + (j + 1) by omega]
  exact hafter hg hne (j + 1) (Nat.succ_pos j) (Nat.succ_lt_succ hj)

/-- The bytes after the first, as the target stands before it. -/
theorem TakesEffect.drop {s : State} {a : Nat} {v : Byte} {d : List Byte} (h : TakesEffect s a (v :: d)) :
    TakesEffect s (a + 1) d := by
  intro k hk
  obtain ⟨hw, hreq⟩ := h (k + 1) (Nat.succ_lt_succ hk)
  rw [show a + 1 + k = a + (k + 1) by omega]
  refine ⟨hw, fun hctrl => ?_⟩
  obtain ⟨req, hpat, hafter⟩ := hreq hctrl
  refine ⟨req, hpat, fun hg hne j hkj hj => ?_⟩
  rw [show a + 1 + j = a + (j + 1) by omega]
  exact hafter hg hne (j + 1) (Nat.succ_lt_succ hkj) (Nat.succ_lt_succ hj)

theorem TakesEffect.store_ok {s : State} {a : Nat} {v : Byte} {d : List Byte} (hc : s.cfg.wf = true)
    (h : TakesEffect s a (v :: d)) : ∃ u, storeReg a v s = .ok u := by
  obtain ⟨hw, hreq⟩ := h.head
  rw [storeReg_writable v hw]
  split
  · rename_i ha
    obtain ⟨req, hv, -⟩ := hreq ha
    rw [ha]
    exact ⟨_, modeRequest_controlStored hc hv⟩
  · exact ⟨_, rfl⟩

/-- After the first byte the others still take effect: the mode is as it was, or what follows is not protected. -/
theorem TakesEffect.tail {s u : State} {a : Nat} {v : Byte} {d : List Byte} (hc : s.cfg.wf = true)
    (h : TakesEffect s a (v :: d)) (hu : storeReg a v s = .ok u) : TakesEffect u (a + 1) d := by
  have hcfg := (storeReg_sameOutside hu).cfg
  by_cases hmode : u.mode = s.mode
  · have hrest := h.drop
    unfold TakesEffect Writable
    rw [hcfg, hmode]
    exact hrest
  · obtain hsame | ⟨rfl, hgrant, hshown⟩ := storeReg_mode hc hu
    · exact absurd hsame hmode
    obtain ⟨hw, hreq⟩ := h.head
    obtain ⟨req, hpat, hafter⟩ := hreq rfl
    obtain rfl : req = u.mode := by
      refine modePattern_injective hc (hpat.symm.trans ?_)
      rw [← hshown, storeReg_reg_self hw hu]
    intro k hk
    obtain ⟨⟨hstat, hnamed, -⟩, -⟩ := h.drop k hk
    have hprot := hafter hgrant hmode k hk
    rw [Writable, hcfg]
    exact ⟨⟨hstat, hnamed, by simp [hprot]⟩, fun hctrl => by omega⟩

/-- A WRITE every byte of which takes effect completes and leaves its bytes in the registers (R67). -/
theorem TakesEffect.memWrite_ok {s : State} {a : Nat} {d : List Byte} (hc : s.cfg.wf = true) (h : TakesEffect s a d) :
    ∃ t, memWrite a d s = .ok t ∧ regsAt t a d.length = d := by
  induction d generalizing a s with
  | nil => exact ⟨s, rfl, rfl⟩
  | cons v d ih =>
    obtain ⟨hw, -⟩ := h.head
    obtain ⟨u, hu⟩ := h.store_ok hc
    have hcfg := (storeReg_sameOutside hu).cfg
    obtain ⟨t, ht, hregs⟩ := ih (hcfg ▸ hc) (h.tail hc hu)
    refine ⟨t, by simp only [memWrite, hu, ht], ?_⟩
    have hfirst : t.reg a = v :=
      (memWrite_reg_before (Nat.lt_succ_self a) (hcfg ▸ hw.1) ht).trans (storeReg_reg_self hw hu)
    rw [List.length_cons, Nat.add_comm, regsAt_append, hregs]
    simp [regsAt, hfirst]

/-- Settles O31: every byte takes effect, and the READ finds the registers. -/
theorem writeThenRead : Obligations.WriteThenRead := by
  intro s a d hq hc ha hd hend htake
  obtain ⟨w, hw, hregs⟩ := TakesEffect.memWrite_ok hc htake
  obtain ⟨t, u, ht, hu, -, -, hresp⟩ := exec_then_read hq (wf_write.2 ⟨ha, hd, hend⟩) (wf_read.2 ⟨ha, hd, hend⟩)
    (fun k hk => (htake k hk).1.2.1) hw
  exact ⟨t, u, ht, hu, hresp.trans hregs⟩

/-! ### BITMOD (R149 d, e) -/

theorem bitModify_fullMask (old v : Byte) : bitModify old 0xFF v = v := by
  have hall : (0xFF : Byte) = BitVec.allOnes 8 := by decide
  rw [bitModify, hall, BitVec.not_allOnes, BitVec.and_zero, BitVec.zero_or, BitVec.and_allOnes]

theorem bitModify_bitModify (old m v : Byte) : bitModify (bitModify old m v) m v = bitModify old m v := by
  ext i hi
  simp only [bitModify, BitVec.getElem_and, BitVec.getElem_or, BitVec.getElem_not]
  cases m[i] <;> simp

/-- A BITMOD that selects every bit is a store, protection and the mode request included (R142). -/
theorem modifyReg_fullMask (a : Nat) (v : Byte) (s : State) : modifyReg a 0xFF v s = storeReg a v s := by
  have hfield : (0xFF : Byte) &&& modeMask ≠ 0 := by decide
  have hmask : ¬ (0xFF : Byte) = 0 := by decide
  simp only [modifyReg, storeReg, modeFieldAfter_eq, bitModify_fullMask, hmask, if_false, hfield, ne_eq,
    not_false_eq_true, and_true]

/-- Settles O34: the two instructions have one whole effect. -/
theorem bitmodFullMaskIsWrite : Obligations.BitmodFullMaskIsWrite := by
  intro s a v hq ha
  have hbitmod : (Instr.bitmod a 0xFF v).wf = true := wf_bitmod.2 ha
  have hwrite : (Instr.write a [v]).wf = true := wf_write.2 ⟨ha, Nat.le_refl 1, ha⟩
  have heffect : wholeEffect (.bitmod a 0xFF v) s = wholeEffect (.write a [v]) s :=
    (modifyReg_fullMask a v s).trans (wholeEffect_write_byte a v s).symm
  cases hw : wholeEffect (.write a [v]) s with
  | error r => exact .inr ⟨r, exec_refused hq hbitmod (heffect.trans hw), exec_refused hq hwrite hw⟩
  | ok w =>
    obtain ⟨t, ht, -, hsame, -, -⟩ := exec_carried_out hq hbitmod (heffect.trans hw)
    obtain ⟨u, hu, -, hsame', -, -⟩ := exec_carried_out hq hwrite hw
    exact .inl ⟨t, u, ht, hu, sameTarget_trans (sameTarget_symm hsame) hsame'⟩

/-- Storing the byte a register holds changes nothing that shows. -/
theorem sameTarget_setReg {s : State} {a : Nat} {v : Byte} (h : s.reg a = v) : SameTarget s (s.setReg a v) := by
  refine ⟨fun x => ?_, rfl, rfl, rfl⟩
  rw [reg_setReg]
  split
  · rename_i hx; rw [hx, h]
  · rfl

/-- Entering the mode that is current and shown changes nothing that shows. -/
theorem sameTarget_enterMode {s : State} (hshown : ModeShown s) :
    SameTarget s (s.enterMode s.mode) := by
  refine ⟨fun x => ?_, rfl, rfl, rfl⟩
  rw [reg_enterMode]
  split
  · rename_i hx
    rw [hx, showMode, ← hshown]
    ext i hi
    simp only [BitVec.getElem_and, BitVec.getElem_or, BitVec.getElem_not]
    cases modeMask[i] <;> simp
  · rfl

/-- A store to the control register that leaves its byte, and whose request is denied or is for the mode that is current
and shown, changes nothing that shows (R234). -/
theorem sameTarget_controlStored {s : State} {b : Byte} {req : OperatingMode} (hc : s.cfg.wf = true)
    (hb : s.reg s.cfg.ctrlAddr = b) (hreq : modeGrant s.cfg s.mode req = true → s.mode = req ∧ ModeShown s) :
    SameTarget s (controlStored b req s) := by
  have hstored : SameTarget s (s.setReg s.cfg.ctrlAddr b) := sameTarget_setReg hb
  unfold controlStored
  split
  · rename_i hg
    obtain ⟨rfl, hshown⟩ := hreq hg
    exact sameTarget_trans hstored (sameTarget_enterMode (modeShown_setReg b hshown (wf_spare hc).1))
  · exact hstored

/-- The same request again is denied again, or is for the mode it has brought (R142, R234). -/
theorem controlStored_repeat {s : State} (b : Byte) (req : OperatingMode) (hc : s.cfg.wf = true) :
    SameTarget (controlStored b req s) (controlStored b req (controlStored b req s)) := by
  have hcfg : (controlStored b req s).cfg = s.cfg := by unfold controlStored; split <;> rfl
  refine sameTarget_controlStored (hcfg ▸ hc) (hcfg ▸ (modeRequested_controlStored b req hc).ctrl) ?_
  unfold controlStored
  split
  · exact fun _ => ⟨rfl, modeShown_enterMode req hc⟩
  · rename_i hdenied
    exact fun hg => absurd hg hdenied

/-- A BITMOD of a writable register, with a mode's pattern left where it requests one, and the same again (R142). -/
theorem modifyReg_repeat {s : State} {a : Nat} {m v : Byte} (hc : s.cfg.wf = true) (hw : Writable s a)
    (hreq : a = s.cfg.ctrlAddr → m &&& modeMask ≠ 0 →
      ∃ req, bitModify (s.reg a) m v &&& modeMask = modePattern s.cfg req) :
    ∃ u w, modifyReg a m v s = .ok u ∧ modifyReg a m v u = .ok w ∧ u.reg a = bitModify (s.reg a) m v ∧
      SameTarget u w := by
  by_cases hmode : a = s.cfg.ctrlAddr ∧ m &&& modeMask ≠ 0
  · obtain ⟨rfl, hm⟩ := hmode
    obtain ⟨req, hpat⟩ := hreq rfl hm
    have hfirst := (modifyReg_ctrl v hc hm).trans (modeRequest_controlStored hc hpat)
    have hsame := controlStored_repeat (s := s) (bitModify (s.reg s.cfg.ctrlAddr) m v) req hc
    have hctrl := (modeRequested_controlStored (bitModify (s.reg s.cfg.ctrlAddr) m v) req hc).ctrl
    have hcfg := (modifyReg_sameOutside hfirst).cfg
    generalize controlStored (bitModify (s.reg s.cfg.ctrlAddr) m v) req s = u at hfirst hsame hctrl hcfg
    have hsecond := modifyReg_ctrl (s := u) v (hcfg ▸ hc) hm
    rw [hcfg, hctrl, bitModify_bitModify, ← hcfg,
      modeRequest_controlStored (hcfg ▸ hc) (by rw [hcfg]; exact hpat), hcfg] at hsecond
    exact ⟨u, _, hfirst, hsecond, hctrl, hsame⟩
  · have hm : a = s.cfg.ctrlAddr → m &&& modeMask = 0 := fun ha => by_contra fun hne => hmode ⟨ha, hne⟩
    have hreg := reg_setReg_self s a (bitModify (s.reg a) m v)
    have hwu : Writable (s.setReg a (bitModify (s.reg a) m v)) a := hw
    refine ⟨_, _, modifyReg_writable hw hm, modifyReg_writable hwu hm, hreg, sameTarget_setReg ?_⟩
    rw [hreg, bitModify_bitModify]

/-- Settles O35: the READ finds the modified byte, and modifying it again changes nothing. -/
theorem bitmodThenRead : Obligations.BitmodThenRead := by
  intro s a m v hq hc ha hw hreq
  have hi : (Instr.bitmod a m v).wf = true := wf_bitmod.2 ha
  have hread : (Instr.read a 1).wf = true := wf_read.2 ⟨ha, Nat.le_refl 1, ha⟩
  obtain ⟨p, q, hp, hagain, hreg, hsame⟩ := modifyReg_repeat hc hw hreq
  obtain ⟨t, u, ht, hu, hpt, -, hresp⟩ := exec_then_read hq hi hread
    (fun k hk => by rw [Nat.lt_one_iff.1 hk]; exact hw.2.1) hp
  obtain ⟨t', w, ht', hw', -, -, hqw, -, -⟩ := exec_two hq hi hi hp hagain
  obtain rfl : t' = t := by simpa [ht'] using ht
  refine ⟨t', u, w, ht, hu, ?_, hw', sameTarget_trans (sameTarget_symm hpt) (sameTarget_trans hsame hqw)⟩
  rw [hresp]
  exact congrArg (· :: []) hreg

end Sys2Proof.Machine
end

section
/-! SUPPORT. The Frame Codec (O36, O37). One relation, `Carries`, says which identifier word a header lays out. The decoder
returns a word that the header carries, the encoder builds a header that carries the word, and a header carries one word
only; both laws of R180 follow. -/

namespace Sys2Proof.Machine

open Sys2Proof.Safety

/-! ### Fields of a word -/

@[simp] theorem extractLsb'_extractLsb' {w : Nat} (x : BitVec w) {a k s n : Nat} (h : s + n ≤ k) :
    (x.extractLsb' a k).extractLsb' s n = x.extractLsb' (a + s) n := by
  ext i hi
  simp [show s + i < k by omega, Nat.add_assoc]

@[simp] theorem extractLsb'_shiftLeft_above {w : Nat} (x : BitVec w) {k s n : Nat} (hk : k ≤ s) (hw : s + n ≤ w) :
    (x <<< k).extractLsb' s n = x.extractLsb' (s - k) n := by
  ext i hi
  simp [-BitVec.getLsbD_eq_getElem, show s + i < w by omega, show ¬ s + i < k by omega, Nat.sub_add_comm hk]

@[simp] theorem extractLsb'_shiftLeft_below {w : Nat} (x : BitVec w) {k s n : Nat} (h : s + n ≤ k) :
    (x <<< k).extractLsb' s n = 0 := by
  ext i hi
  simp [show s + i < k by omega]

@[simp] theorem extractLsb'_ushiftRight {w : Nat} (x : BitVec w) (k s n : Nat) :
    (x >>> k).extractLsb' s n = x.extractLsb' (k + s) n := by
  ext i hi
  simp [Nat.add_assoc]

@[simp] theorem extractLsb'_beyond {w : Nat} (x : BitVec w) {s n : Nat} (h : w ≤ s) : x.extractLsb' s n = 0 := by
  ext i hi
  simp [BitVec.getLsbD_of_ge x (s + i) (by omega)]

@[simp] theorem extractLsb'_setWidth_beyond {w v : Nat} (x : BitVec w) {s n : Nat} (h : w ≤ s) :
    (x.setWidth v).extractLsb' s n = 0 := by
  ext i hi
  simp [BitVec.getLsbD_of_ge x (s + i) (by omega)]

/-- Words that agree on two adjacent fields agree on the field the two make up. -/
theorem extractLsb'_join {w : Nat} {x y : BitVec w} {s n m : Nat} (hlow : x.extractLsb' s n = y.extractLsb' s n)
    (hhigh : x.extractLsb' (s + n) m = y.extractLsb' (s + n) m) :
    x.extractLsb' s (m + n) = y.extractLsb' s (m + n) := by
  rw [← BitVec.extractLsb'_append_extractLsb'_eq_extractLsb' rfl, hlow, hhigh,
    BitVec.extractLsb'_append_extractLsb'_eq_extractLsb' rfl]

theorem extractLsb'_one_congr {w : Nat} {x y : BitVec w} {i : Nat} (h : x.getLsbD i = y.getLsbD i) :
    x.extractLsb' i 1 = y.extractLsb' i 1 := by
  ext j hj
  obtain rfl : j = 0 := by omega
  simpa using h

/-! ### The identifier word of a header (R163 to R165) -/

/-- The word is the one the identifier bytes and the flag of the header lay out: markers and fields of R161. -/
structure Carries (c : Cfg) (h : Header) (id : Id32) : Prop where
  extended : id.getLsbD 31 = h.idLow.getLsbD 3
  remote : id.getLsbD 30 = (headerByte h c.rtrByte).getLsbD rtrBit
  unused : id.getLsbD 29 = false
  fields : if h.idLow.getLsbD 3 then
      id.extractLsb' 21 8 = h.idHigh ∧ id.extractLsb' 18 3 = h.idLow.extractLsb' 5 3 ∧
      id.extractLsb' 16 2 = h.idLow.extractLsb' 0 2 ∧ id.extractLsb' 8 8 = h.eidHigh ∧ id.extractLsb' 0 8 = h.eidLow
    else
      id.extractLsb' 11 18 = 0 ∧ id.extractLsb' 3 8 = h.idHigh ∧ id.extractLsb' 0 3 = h.idLow.extractLsb' 5 3

/-- A header carries one word only: the markers and the fields are all 32 bits. -/
theorem carries_unique {c : Cfg} {h : Header} {x y : Id32} (hx : Carries c h x) (hy : Carries c h y) : x = y := by
  obtain ⟨xext, xrem, xun, xf⟩ := hx
  obtain ⟨yext, yrem, yun, yf⟩ := hy
  have htop : x.extractLsb' 29 3 = y.extractLsb' 29 3 :=
    extractLsb'_join (n := 1) (m := 2) (extractLsb'_one_congr (xun.trans yun.symm))
      (extractLsb'_join (n := 1) (m := 1) (extractLsb'_one_congr (xrem.trans yrem.symm))
        (extractLsb'_one_congr (xext.trans yext.symm)))
  suffices hall : x.extractLsb' 0 29 = y.extractLsb' 0 29 by
    simpa using extractLsb'_join (s := 0) (m := 3) hall htop
  cases hm : h.idLow.getLsbD 3 <;> simp only [hm, Bool.false_eq_true, if_false, if_true] at xf yf
  case true =>
    obtain ⟨x21, x18, x16, x8, x0⟩ := xf
    obtain ⟨y21, y18, y16, y8, y0⟩ := yf
    have h16 := extractLsb'_join (n := 8) (m := 8) (x0.trans y0.symm) (x8.trans y8.symm)
    have h18 := extractLsb'_join (n := 16) (m := 2) h16 (x16.trans y16.symm)
    have h21 := extractLsb'_join (n := 18) (m := 3) h18 (x18.trans y18.symm)
    exact extractLsb'_join (n := 21) (m := 8) h21 (x21.trans y21.symm)
  case false =>
    obtain ⟨x11, x3, x0⟩ := xf
    obtain ⟨y11, y3, y0⟩ := yf
    have h11 := extractLsb'_join (n := 3) (m := 8) (x0.trans y0.symm) (x3.trans y3.symm)
    exact extractLsb'_join (n := 11) (m := 18) h11 (x11.trans y11.symm)

/-! ### Decoding -/

/-- The word of `decodeHeader` (R166), whatever the length. -/
def decodedId (c : Cfg) (h : Header) : Id32 :=
  if (headerByte h c.rtrByte).getLsbD rtrBit then headerId h ||| 0x40000000 else headerId h

theorem decodeHeader_above (c : Cfg) {h : Header} (hd : (h.dlc &&& 0x0F).toNat > 8) :
    decodeHeader c h = .error (.dlcRange (h.dlc &&& 0x0F).toNat) := if_pos hd

theorem decodeHeader_within (c : Cfg) {h : Header} (hd : (h.dlc &&& 0x0F).toNat ≤ 8) :
    decodeHeader c h = .ok (decodedId c h, (h.dlc &&& 0x0F).toNat) := if_neg (Nat.not_lt.2 hd)

theorem headerId_extended {h : Header} (he : h.idLow.getLsbD 3 = true) :
    headerId h = ((headerSid h <<< 18) ||| ((h.idLow &&& 0x03).zeroExtend 32 <<< 16) |||
      (h.eidHigh.zeroExtend 32 <<< 8) ||| h.eidLow.zeroExtend 32) ||| 0x80000000 := if_pos he

theorem headerId_standard {h : Header} (he : h.idLow.getLsbD 3 = false) : headerId h = headerSid h :=
  if_neg (ne_true_of_eq_false he)

@[simp] theorem headerSid_high (h : Header) : (headerSid h).extractLsb' 3 8 = h.idHigh := by
  simp [headerSid, BitVec.extractLsb'_or, BitVec.extractLsb'_setWidth_of_le]

@[simp] theorem headerSid_low (h : Header) : (headerSid h).extractLsb' 0 3 = h.idLow.extractLsb' 5 3 := by
  simp [headerSid, BitVec.extractLsb'_or, BitVec.extractLsb'_setWidth_of_le]

theorem headerSid_above (h : Header) : (headerSid h).extractLsb' 11 18 = 0 := by
  simp [headerSid, BitVec.extractLsb'_or]

theorem headerSid_getLsbD (h : Header) {i : Nat} (hi : 11 ≤ i) : (headerSid h).getLsbD i = false := by
  simp [headerSid, BitVec.getLsbD_of_ge h.idHigh (i - 3) (by omega), BitVec.getLsbD_of_ge h.idLow (5 + i) (by omega)]

theorem headerId_markers (h : Header) :
    (headerId h).getLsbD 31 = h.idLow.getLsbD 3 ∧ (headerId h).getLsbD 30 = false ∧
      (headerId h).getLsbD 29 = false := by
  cases he : h.idLow.getLsbD 3
  case true =>
    rw [headerId_extended he]
    simp [headerSid]
  case false =>
    rw [headerId_standard he]
    exact ⟨headerSid_getLsbD h (by decide), headerSid_getLsbD h (by decide), headerSid_getLsbD h (by decide)⟩

/-- The remote-request flag is bit 30 and nothing else (R166). -/
theorem decodedId_getLsbD (c : Cfg) (h : Header) (i : Nat) : (decodedId c h).getLsbD i =
    ((headerId h).getLsbD i || (decide (30 = i) && (headerByte h c.rtrByte).getLsbD rtrBit)) := by
  have hflag : (0x40000000 : Id32).getLsbD i = decide (30 = i) :=
    (BitVec.getLsbD_twoPow (w := 32) 30 i).trans (by simp)
  unfold decodedId
  split
  next hf => rw [BitVec.getLsbD_or, hflag, hf, Bool.and_true]
  next hf => rw [eq_false_of_ne_true hf, Bool.and_false, Bool.or_false]

theorem extractLsb'_decodedId (c : Cfg) (h : Header) {s n : Nat} (hs : s + n ≤ 30) :
    (decodedId c h).extractLsb' s n = (headerId h).extractLsb' s n := by
  ext i hi
  simp only [BitVec.getElem_extractLsb', decodedId_getLsbD, show 30 ≠ s + i by omega, decide_false,
    Bool.false_and, Bool.or_false]

theorem and_three (x : BitVec 2) : x &&& 3#2 = x := BitVec.and_allOnes

/-- What the decoder returns, the header carries (R163 to R166). -/
theorem carries_decodedId (c : Cfg) (h : Header) : Carries c h (decodedId c h) := by
  obtain ⟨h31, h30, h29⟩ := headerId_markers h
  refine ⟨?_, ?_, ?_, ?_⟩
  · rw [decodedId_getLsbD, h31]; exact Bool.or_false _
  · rw [decodedId_getLsbD, h30]; rfl
  · rw [decodedId_getLsbD, h29]; rfl
  · cases he : h.idLow.getLsbD 3 <;> simp only [Bool.false_eq_true, if_false, if_true]
    case true =>
      simp [extractLsb'_decodedId, headerId_extended he, BitVec.extractLsb'_or, BitVec.extractLsb'_and,
        BitVec.extractLsb'_setWidth_of_le, and_three]
    case false =>
      simpa [extractLsb'_decodedId, headerId_standard he] using headerSid_above h

/-! ### Encoding -/

/-- The header of `encodeFrame` (R176), whether or not the frame is well-formed. -/
def encodedHeader (c : Cfg) (f : CanFrame) : Header :=
  headerOr (plainHeader f) c.rtrByte (if f.identifier.getLsbD 30 then 0x40 else 0x00)

theorem encodeFrame_of_wf (c : Cfg) {f : CanFrame} (h : f.wf = true) :
    encodeFrame c f = some (encodedHeader c f, f.data) := if_pos h

theorem canFrame_wf_iff {f : CanFrame} : f.wf = true ↔ f.data.length ≤ 8 ∧ f.identifier.getLsbD 29 = false ∧
    (f.identifier.getLsbD 31 = false → f.identifier.extractLsb' 11 18 = 0) := by
  cases h : f.identifier.getLsbD 31 <;> simp [-BitVec.getLsbD_eq_getElem, CanFrame.wf, h, and_assoc]

theorem frameSid_high (id : Id32) :
    (frameSid id).extractLsb' 3 8 = if id.getLsbD 31 then id.extractLsb' 21 8 else id.extractLsb' 3 8 := by
  unfold frameSid
  split <;> simp

theorem frameSid_low (id : Id32) :
    (frameSid id).extractLsb' 0 3 = if id.getLsbD 31 then id.extractLsb' 18 3 else id.extractLsb' 0 3 := by
  unfold frameSid
  split <;> simp

theorem plainHeader_extended {f : CanFrame} (he : f.identifier.getLsbD 31 = true) : plainHeader f =
    { ctrl := 0x00
      idHigh := f.identifier.extractLsb' 21 8
      idLow := ((f.identifier.extractLsb' 18 3).zeroExtend 8 <<< 5) ||| 0x08 |||
        (f.identifier.extractLsb' 16 2).zeroExtend 8
      eidHigh := f.identifier.extractLsb' 8 8
      eidLow := f.identifier.extractLsb' 0 8
      dlc := BitVec.ofNat 8 f.data.length } := by
  simp only [plainHeader, frameSid_high, frameSid_low, he, if_true]

theorem plainHeader_standard {f : CanFrame} (he : f.identifier.getLsbD 31 = false) : plainHeader f =
    { ctrl := 0x00
      idHigh := f.identifier.extractLsb' 3 8
      idLow := (f.identifier.extractLsb' 0 3).zeroExtend 8 <<< 5
      eidHigh := 0x00
      eidLow := 0x00
      dlc := BitVec.ofNat 8 f.data.length } := by
  simp only [plainHeader, frameSid_high, frameSid_low, he, Bool.false_eq_true, if_false]
  simp

/-- The flag alone, as the encoder places it and as `canon` keeps it. -/
theorem and_flag (b : Byte) : b &&& 0x40 = if b.getLsbD rtrBit then 0x40 else 0x00 := by
  rw [show (0x40 : Byte) = BitVec.twoPow 8 6 from rfl]
  exact BitVec.and_twoPow b 6

theorem headerByte_headerOr {i : Nat} (hi : i = 0 ∨ i = 5) (h : Header) (b : Byte) :
    headerByte (headerOr h i b) i = headerByte h i ||| b := by
  obtain rfl | rfl := hi <;> rfl

/-- Placing the remote-request flag leaves the identifier bytes. -/
theorem headerOr_identifierBytes {i : Nat} (hi : i = 0 ∨ i = 5) (h : Header) (b : Byte) :
    (headerOr h i b).idHigh = h.idHigh ∧ (headerOr h i b).idLow = h.idLow ∧
      (headerOr h i b).eidHigh = h.eidHigh ∧ (headerOr h i b).eidLow = h.eidLow := by
  obtain rfl | rfl := hi <;> exact ⟨rfl, rfl, rfl, rfl⟩

theorem headerOr_dlc_length {i : Nat} (hi : i = 0 ∨ i = 5) (h : Header) (r : Bool) :
    (headerOr h i (if r then 0x40 else 0x00)).dlc &&& 0x0F = h.dlc &&& 0x0F := by
  obtain rfl | rfl := hi
  · rfl
  · show (h.dlc ||| (if r then 0x40 else 0x00)) &&& 0x0F = h.dlc &&& 0x0F
    rw [BitVec.and_comm, BitVec.and_or_distrib_left, BitVec.and_comm]
    cases r <;> exact BitVec.or_zero

theorem ofNat_and_lengthMask {n : Nat} (hn : n ≤ 8) : (BitVec.ofNat 8 n &&& 0x0F).toNat = n := by
  revert n; decide

theorem headerByte_plainHeader_flag {i : Nat} (hi : i = 0 ∨ i = 5) {f : CanFrame} (hlen : f.data.length ≤ 8) :
    (headerByte (plainHeader f) i).getLsbD rtrBit = false := by
  obtain rfl | rfl := hi
  · exact BitVec.getLsbD_zero
  · show (BitVec.ofNat 8 f.data.length).getLsbD 6 = false
    rw [BitVec.getLsbD_ofNat, Nat.testBit_lt_two_pow (by omega)]
    rfl

/-- The header the encoder builds for a well-formed frame carries its identifier (R176). -/
theorem carries_encodedHeader {c : Cfg} (hc : c.rtrByte = 0 ∨ c.rtrByte = 5) {f : CanFrame} (hf : f.wf = true) :
    Carries c (encodedHeader c f) f.identifier := by
  obtain ⟨hlen, hunused, hstd⟩ := canFrame_wf_iff.1 hf
  have hrem : f.identifier.getLsbD 30 = (headerByte (encodedHeader c f) c.rtrByte).getLsbD rtrBit := by
    rw [encodedHeader, headerByte_headerOr hc, BitVec.getLsbD_or, headerByte_plainHeader_flag hc hlen]
    cases f.identifier.getLsbD 30 <;> rfl
  obtain ⟨hidHigh, hidLow, heidHigh, heidLow⟩ := headerOr_identifierBytes hc (plainHeader f)
    (if f.identifier.getLsbD 30 then 0x40 else 0x00)
  cases he : f.identifier.getLsbD 31
  case true =>
    have hmark : (encodedHeader c f).idLow.getLsbD 3 = true := by
      rw [encodedHeader, hidLow, plainHeader_extended he]; simp
    refine ⟨he.trans hmark.symm, hrem, hunused, ?_⟩
    rw [if_pos hmark, encodedHeader, hidHigh, hidLow, heidHigh, heidLow, plainHeader_extended he]
    simp [BitVec.extractLsb'_or, BitVec.extractLsb'_setWidth_of_le]
  case false =>
    have hmark : (encodedHeader c f).idLow.getLsbD 3 = false := by
      rw [encodedHeader, hidLow, plainHeader_standard he]; simp
    refine ⟨he.trans hmark.symm, hrem, hunused, ?_⟩
    rw [if_neg (ne_true_of_eq_false hmark), encodedHeader, hidHigh, hidLow, plainHeader_standard he]
    simpa [BitVec.extractLsb'_setWidth_of_le] using hstd he

theorem idLow_standard (b : Byte) : (b.extractLsb' 5 3).zeroExtend 8 <<< 5 = b &&& 0xE0 := by
  revert b; decide

theorem idLow_extended {b : Byte} (h : b.getLsbD 3 = true) :
    ((b.extractLsb' 5 3).zeroExtend 8 <<< 5) ||| (0x08 : Byte) ||| (b.extractLsb' 0 2).zeroExtend 8 = b &&& 0xEB := by
  revert b; decide

/-- What a header carries encodes to the canonical header (R180). -/
theorem encodedHeader_eq_canonHeader {c : Cfg} {h : Header} {id : Id32} (hid : Carries c h id) {data : List Byte}
    (hlen : data.length = (h.dlc &&& 0x0F).toNat) : encodedHeader c ⟨id, data⟩ = canonHeader c h := by
  obtain ⟨hext, hrem, -, hfields⟩ := hid
  have hdlc : BitVec.ofNat 8 data.length = h.dlc &&& 0x0F := by rw [hlen, BitVec.ofNat_toNat, BitVec.setWidth_eq]
  rw [encodedHeader, canonHeader, hrem, and_flag]
  cases he : h.idLow.getLsbD 3 <;>
    simp only [he, headerExt, Bool.false_eq_true, if_false, if_true] at hfields ⊢
  case true =>
    obtain ⟨h21, h18, h16, h8, h0⟩ := hfields
    rw [plainHeader_extended (f := ⟨id, data⟩) (hext.trans he)]
    simp only [h21, h18, h16, h8, h0, hdlc, idLow_extended he]
  case false =>
    obtain ⟨-, h3, h0⟩ := hfields
    rw [plainHeader_standard (f := ⟨id, data⟩) (hext.trans he)]
    simp only [h3, h0, hdlc, idLow_standard]

/-- What a header carries can be encoded again (R169, R175). -/
theorem carries_wf {c : Cfg} {h : Header} {id : Id32} (hid : Carries c h id) {data : List Byte}
    (hlen : data.length ≤ 8) : CanFrame.wf ⟨id, data⟩ = true := by
  refine canFrame_wf_iff.2 ⟨hlen, hid.unused, fun hstd => ?_⟩
  have hfields := hid.fields
  rw [if_neg (ne_true_of_eq_false (hid.extended.symm.trans hstd))] at hfields
  exact hfields.1

theorem headerBytes_canonHeader {c : Cfg} (hc : c.rtrByte = 0 ∨ c.rtrByte = 5) (h : Header) :
    headerBytes (canonHeader c h) =
      [if c.rtrByte = 0 then h.ctrl &&& 0x40 else 0x00, h.idHigh,
        h.idLow &&& (if h.idLow.getLsbD 3 then 0xEB else 0xE0),
        if h.idLow.getLsbD 3 then h.eidHigh else 0x00, if h.idLow.getLsbD 3 then h.eidLow else 0x00,
        h.dlc &&& (if c.rtrByte = 0 then 0x0F else 0x4F)] := by
  unfold canonHeader
  obtain hr | hr := hc <;> rw [hr]
  · exact congrArg₂ List.cons BitVec.zero_or rfl
  · show [_, _, _, _, _, h.dlc &&& 0x0F ||| h.dlc &&& 0x40] = _
    rw [← BitVec.and_or_distrib_left]
    rfl

/-- Settles O36: the header carries one word only, and what it carries encodes to `canon` of it. -/
theorem codecRoundTrips : Obligations.CodecRoundTrips := by
  intro c hc
  refine ⟨fun f hf => ⟨encodedHeader c f, encodeFrame_of_wf c hf, ?_⟩, fun h hd => ?_⟩
  · have hlen := (canFrame_wf_iff.1 hf).1
    have hdlc : ((encodedHeader c f).dlc &&& 0x0F).toNat = f.data.length := by
      rw [encodedHeader, headerOr_dlc_length hc]
      exact ofNat_and_lengthMask hlen
    rw [decodeHeader_within c (hdlc.trans_le hlen), hdlc,
      carries_unique (carries_decodedId c _) (carries_encodedHeader hc hf)]
  · refine ⟨decodedId c h, decodeHeader_within c hd, fun data hlen =>
      ⟨canonHeader c h, ?_, headerBytes_canonHeader hc h⟩⟩
    have hid := carries_decodedId c h
    rw [encodeFrame_of_wf c (carries_wf hid (hlen.trans_le hd)), encodedHeader_eq_canonHeader hid hlen]

/-- Settles O37: the header carries the decoded word. -/
theorem headerDecodesBitByBit : Obligations.HeaderDecodesBitByBit := by
  intro c h hc
  refine ⟨decodeHeader_above c, fun hd => ?_⟩
  have hid := carries_decodedId c h
  have hflag : headerByte h c.rtrByte = if c.rtrByte = 0 then h.ctrl else h.dlc := by
    obtain hr | hr := hc <;> rw [hr] <;> rfl
  exact ⟨_, decodeHeader_within c hd, hid.extended, hflag ▸ hid.remote, hid.unused, hid.fields,
    fun _ => carries_wf hid⟩

end Sys2Proof.Machine
end

section
/-! SUPPORT. The Timing Resolver (O38, O39). The scan of R201 is a search for the first row with both keys. Each byte of
R207 is a join of fields, so each field of R209 is read off one part of it, and the inverse of R211 reads the same fields. -/

namespace Sys2Proof.Machine

/-! ### The scan of the table (R201, R202) -/

/-- A row has both keys. -/
def rowHasKeys (osc br : Nat) (r : TimingRow) : Bool := decide (r.osc = osc) && decide (r.bitrate = br)

@[simp] theorem rowHasKeys_iff {osc br : Nat} {r : TimingRow} :
    rowHasKeys osc br r = true ↔ r.osc = osc ∧ r.bitrate = br := by simp [rowHasKeys]

theorem resolve_eq_find? (table : List TimingRow) (osc br : Nat) :
    resolve table osc br = (table.find? (rowHasKeys osc br)).map (·.tp) := by
  induction table with
  | nil => rfl
  | cons r rs ih =>
    by_cases hr : r.osc = osc ∧ r.bitrate = br
    · rw [resolve, if_pos hr, List.find?_cons_of_pos (rowHasKeys_iff.2 hr)]; rfl
    · rw [resolve, if_neg hr, List.find?_cons_of_neg (mt rowHasKeys_iff.1 hr), ih]

/-- Every legal table has MF's row first among the rows with its keys (R202). -/
theorem cfg_wf_find_MF {c : Cfg} (h : c.wf = true) :
    c.timingTable.find? (rowHasKeys 8000000 500000) = some ⟨8000000, 500000, ⟨1, 2, 3, 2, 1⟩⟩ := by
  simp only [Cfg.wf, Bool.and_eq_true, decide_eq_true_eq] at h
  obtain ⟨⟨⟨-, hfind⟩, -⟩, -⟩ := h
  exact hfind

/-- Settles O38: the scan is the library's search, and a legal table answers the search for MF's row. -/
theorem resolveFirstMatch : Obligations.ResolveFirstMatch := by
  intro table osc br
  refine ⟨fun tp => ?_, ?_, fun c hc => by rw [resolve_eq_find?, cfg_wf_find_MF hc]; rfl⟩
  · simp only [resolve_eq_find?, Option.map_eq_some_iff, List.find?_eq_some_iff_append, rowHasKeys_iff,
      Bool.not_eq_true', ← Bool.not_eq_true]
    constructor
    · rintro ⟨r, ⟨⟨hosc, hbr⟩, pre, post, htable, hpre⟩, htp⟩
      exact ⟨pre, r, post, htable, hosc, hbr, htp, hpre⟩
    · rintro ⟨pre, r, post, htable, hosc, hbr, htp, hpre⟩
      exact ⟨r, ⟨⟨hosc, hbr⟩, pre, post, htable, hpre⟩, htp⟩
  · simp only [resolve_eq_find?, Option.map_eq_none_iff, List.find?_eq_none, rowHasKeys_iff]

/-! ### The fields of the three bytes (R207, R209) -/

theorem timingParameters_wf_iff {tp : TimingParameters} : tp.wf = true ↔
    (1 ≤ tp.prescaler ∧ tp.prescaler ≤ 8) ∧ (1 ≤ tp.propSeg ∧ tp.propSeg ≤ 8) ∧
      (1 ≤ tp.phaseSeg1 ∧ tp.phaseSeg1 ≤ 8) ∧ (1 ≤ tp.phaseSeg2 ∧ tp.phaseSeg2 ≤ 8) ∧ 1 ≤ tp.sjw ∧ tp.sjw ≤ 4 := by
  simp [TimingParameters.wf, and_assoc]

theorem packCNF_of_wf {tp : TimingParameters} (h : tp.wf = true) : packCNF tp = some (cnfBytes tp) := if_pos h

theorem ofNat_field_toNat {w k n : Nat} (hk : k ≤ w) (hn : n < 2 ^ k) :
    ((BitVec.ofNat w n).extractLsb' 0 k).toNat = n := by
  rw [BitVec.extractLsb'_toNat, BitVec.toNat_ofNat, Nat.shiftRight_zero,
    Nat.mod_mod_of_dvd _ (Nat.pow_dvd_pow 2 hk), Nat.mod_eq_of_lt hn]

theorem ofNat_getLsbD_above {w k n i : Nat} (hn : n < 2 ^ k) (hi : k ≤ i) : (BitVec.ofNat w n).getLsbD i = false := by
  rw [BitVec.getLsbD_ofNat, Nat.testBit_lt_two_pow (hn.trans_le (Nat.pow_le_pow_right two_pos hi)), Bool.and_false]

theorem ofNat_field_above {w k n s m : Nat} (hn : n < 2 ^ k) (hs : k ≤ s) :
    (BitVec.ofNat w n).extractLsb' s m = 0 := by
  ext i hi
  rw [BitVec.getElem_extractLsb', ofNat_getLsbD_above hn (hs.trans (Nat.le_add_right s i))]
  simp

/-- CNF1 (R209): bit 7 clear, bit 6 set, bits 5 to 3 clear, below them phaseSeg2. -/
theorem cnf1_fields {tp : TimingParameters} (h2 : tp.phaseSeg2 - 1 < 2 ^ 3) :
    (cnfBytes tp).cnf1.getLsbD 7 = false ∧ (cnfBytes tp).cnf1.getLsbD 6 = true ∧
      (cnfBytes tp).cnf1.extractLsb' 3 3 = 0 ∧ ((cnfBytes tp).cnf1.extractLsb' 0 3).toNat = tp.phaseSeg2 - 1 := by
  simp only [cnfBytes, BitVec.getLsbD_or, BitVec.extractLsb'_or]
  refine ⟨?_, rfl, ?_, ?_⟩
  · rw [ofNat_getLsbD_above h2 (by decide)]; rfl
  · rw [ofNat_field_above h2 le_rfl]; rfl
  · exact (congrArg BitVec.toNat BitVec.zero_or).trans (ofNat_field_toNat (by decide) h2)

/-- CNF2 (R209): bit 7 set, bit 6 clear, then phaseSeg1, then propSeg. -/
theorem cnf2_fields {tp : TimingParameters} (h1 : tp.phaseSeg1 - 1 < 2 ^ 3) (hp : tp.propSeg - 1 < 2 ^ 3) :
    (cnfBytes tp).cnf2.getLsbD 7 = true ∧ (cnfBytes tp).cnf2.getLsbD 6 = false ∧
      ((cnfBytes tp).cnf2.extractLsb' 3 3).toNat = tp.phaseSeg1 - 1 ∧
      ((cnfBytes tp).cnf2.extractLsb' 0 3).toNat = tp.propSeg - 1 := by
  simp only [cnfBytes, BitVec.getLsbD_or, BitVec.extractLsb'_or, BitVec.getLsbD_shiftLeft]
  refine ⟨rfl, ?_, ?_, ?_⟩
  · rw [ofNat_getLsbD_above h1 (by decide), ofNat_getLsbD_above hp (by decide)]; rfl
  · rw [extractLsb'_shiftLeft_above _ le_rfl (by decide), ofNat_field_above hp le_rfl]
    exact (congrArg BitVec.toNat (BitVec.or_zero.trans BitVec.zero_or)).trans (ofNat_field_toNat (by decide) h1)
  · rw [extractLsb'_shiftLeft_below _ le_rfl]
    exact (congrArg BitVec.toNat BitVec.zero_or).trans (ofNat_field_toNat (by decide) hp)

/-- CNF3 (R209): sjw at the top, bits 5 to 3 clear, below them the prescaler. -/
theorem cnf3_fields {tp : TimingParameters} (hj : tp.sjw - 1 < 2 ^ 2) (hb : tp.prescaler - 1 < 2 ^ 3) :
    ((cnfBytes tp).cnf3.extractLsb' 6 2).toNat = tp.sjw - 1 ∧ (cnfBytes tp).cnf3.extractLsb' 3 3 = 0 ∧
      ((cnfBytes tp).cnf3.extractLsb' 0 3).toNat = tp.prescaler - 1 := by
  simp only [cnfBytes, BitVec.extractLsb'_or]
  refine ⟨?_, ?_, ?_⟩
  · rw [extractLsb'_shiftLeft_above _ le_rfl (by decide), ofNat_field_above hb (by decide)]
    exact (congrArg BitVec.toNat BitVec.or_zero).trans (ofNat_field_toNat (by decide) hj)
  · rw [extractLsb'_shiftLeft_below _ (by decide), ofNat_field_above hb le_rfl]; rfl
  · rw [extractLsb'_shiftLeft_below _ (by decide)]
    exact (congrArg BitVec.toNat BitVec.zero_or).trans (ofNat_field_toNat (by decide) hb)

/-! ### The inverse reads the fields (R211) -/

theorem and_lowField_toNat (b : Byte) : (b &&& 0x07).toNat = (b.extractLsb' 0 3).toNat := by
  rw [BitVec.toNat_and, BitVec.extractLsb'_toNat]
  exact Nat.and_two_pow_sub_one_eq_mod _ 3

theorem and_middleField_toNat (b : Byte) : ((b >>> 3) &&& 0x07).toNat = (b.extractLsb' 3 3).toNat := by
  rw [and_lowField_toNat, extractLsb'_ushiftRight]

theorem shift_topField_toNat (b : Byte) : (b >>> 6).toNat = (b.extractLsb' 6 2).toNat := by
  rw [BitVec.toNat_ushiftRight, BitVec.extractLsb'_toNat, Nat.mod_eq_of_lt]
  rw [Nat.shiftRight_eq_div_pow]
  have := b.isLt
  omega

/-- Settles O39: every clause is a field of one byte, and each parameter is its field plus one. -/
theorem packedBytesBitByBit : Obligations.PackedBytesBitByBit := by
  intro tp
  refine ⟨packCNF_none, fun h => ⟨cnfBytes tp, packCNF_of_wf h, ?_⟩⟩
  obtain ⟨hb, hp, h1, h2, hj⟩ := timingParameters_wf_iff.1 h
  obtain ⟨c17, c16, c13, c10⟩ := cnf1_fields (tp := tp) (by omega)
  obtain ⟨c27, c26, c23, c20⟩ := cnf2_fields (tp := tp) (by omega) (by omega)
  obtain ⟨c36, c33, c30⟩ := cnf3_fields (tp := tp) (by omega) (by omega)
  refine ⟨c17, c16, c13, c10, c27, c26, c23, c20, c36, c33, c30, rfl, ?_⟩
  rw [and_lowField_toNat, shift_topField_toNat, and_lowField_toNat, and_middleField_toNat, and_lowField_toNat,
    c10, c20, c23, c30, c36]
  omega

end Sys2Proof.Machine
end

section
/-! SUPPORT. A command that issues its queue without interference, from the step that accepts it to the step that answers
it; the unsupported pair of `construct`, `status` and `setMode` (O42, O44, O43). -/

namespace Sys2Proof.Machine

open Sys2Proof.Safety

/-! ### A command and its queue (R105, R130) -/

/-- An accepted command issues its queue, with the effects the queue has on the target the command found: one step to
accept, two for each instruction. -/
theorem run_accepted {s s₁ u : State} {is : List Instr} {f : Finish} (hstep : step s = .next (startJob is f s₁))
    (htarget : withTarget s s₁ = s₁) (hw : s₁.wire = none) (hq : Quiet s₁) (hne : is ≠ []) (hi : ∀ i ∈ is, i.wf = true)
    (hu : effects is s = .ok u) : ∃ t, Runs (1 + 2 * is.length) s t ∧ Issued is [] f s₁ u t := by
  have htarget' : withTarget s (startJob is f s₁) = startJob is f s₁ := congrArg (startJob is f) htarget
  have hu' : effects is (startJob is f s₁) = .ok (withTarget u (startJob is f s₁)) := by
    rw [← htarget', effects_withTarget, hu, htarget']
    rfl
  obtain ⟨t, ht, h⟩ := run_queue (s := startJob is f s₁) hne hw rfl hq
    (fun i hmem => ⟨hi i hmem, decode_encode (hi i hmem)⟩) hu'
  exact ⟨t, runs_add (runs_one hstep) ht, { h with }⟩

theorem Issued.sameTarget {is rest : List Instr} {f : Finish} {s u t : State} (h : Issued is rest f s u t)
    (hcfg : u.cfg = s.cfg) : SameTarget u t :=
  ⟨reg_congr h.mem (h.cfg.trans hcfg.symm), h.mode, h.requested, h.marks⟩

theorem Issued.sameInstance {is rest : List Instr} {f : Finish} {s u t : State} (h : Issued is rest f s u t) :
    SameInstance s t := ⟨h.constructed, h.tp, h.osc, h.bitrate, h.needsReinit⟩

/-- An outcome delivered after the queue is the command's answer. -/
theorem Issued.answered {is rest : List Instr} {f : Finish} {s u t : State} (h : Issued is rest f s u t)
    (o : CmdOutcome) : Answered o s.host s (deliver o t) :=
  ⟨⟨rfl, h.wire⟩, h.released, h.window, h.host, h.spi, h.env, h.cfg, congrArg (· ++ [o]) h.outcomes⟩

/-- A command that answers with no result once its queue is issued: one step to accept it, two for each instruction, one
to answer. -/
theorem run_unit_command {c : Command} {es : List HostEvent} {s u : State} {is : List Instr} (hp : Presents c es s)
    (haccept : acceptCommand c (taking es s) = .next (startJob is .unit (taking es s))) (hq : Quiet s) (hne : is ≠ [])
    (hi : ∀ i ∈ is, i.wf = true) (hu : effects is s = .ok u) :
    ∃ t, Runs (2 + 2 * is.length) s t ∧ Answered (.ok .unit) es s t ∧ SameInstance s t ∧ SameTarget u t ∧ Sent is s t := by
  obtain ⟨t, ht, h⟩ := run_accepted ((step_presents hp).trans haccept) rfl hp.1.2 hq hne hi hu
  have hlast : step t = .next (deliver (.ok .unit) (t.setResponse [])) := step_finish h.wire h.job
  have hrun := runs_add ht (runs_one hlast)
  rw [show 1 + 2 * is.length + 1 = 2 + 2 * is.length by omega] at hrun
  exact ⟨_, hrun, { h.answered (.ok .unit) with }, { h.sameInstance with },
    { h.sameTarget (effects_sameOutside hu).1.cfg with }, h.sent⟩

/-! ### A pair without a row (R292) -/

/-- Settles O42: the scan of the table finds no row, and the error is raised by the idle block. -/
theorem unsupportedTimingChangesNothing : Obligations.UnsupportedTimingChangesNothing := by
  intro s osc br es hp hrows
  obtain ⟨-, hnone, -⟩ := resolveFirstMatch s.cfg.timingTable osc br
  refine ⟨raiseError (.unsupportedTiming osc br) (taking es s), ?_, ⟨⟨rfl, rfl⟩, rfl, rfl, rfl, rfl, rfl, rfl, rfl⟩,
    ⟨rfl, rfl, rfl, rfl, Bool.or_false _⟩, ⟨fun _ => rfl, rfl, rfl, rfl⟩, rfl, rfl⟩
  rw [step_presents hp, acceptCommand_open (.inr rfl)]
  simp only [acceptOpen, acceptConstruct, taking_cfg, hnone.2 hrows]

/-! ### `status` (R236) -/

theorem stat_named (c : Cfg) : isNamed c c.statAddr = true := by simp [isNamed]

/-- Three steps of `status`: the READ of the status register has been issued, and its response is the byte. -/
theorem run_status {s : State} {es : List HostEvent} (hp : Presents .status es s) (hq : Quiet s) (hc : s.cfg.wf = true)
    (hcon : s.constructed = true) :
    ∃ t, Runs 3 s t ∧ Issued [.read s.cfg.statAddr 1] [] .status (taking es s) s t ∧
      t.response = [s.reg s.cfg.statAddr] := by
  have hstep : step s = .next (startJob [.read s.cfg.statAddr 1] .status (taking es s)) := by
    rw [step_presents hp, acceptCommand_open (.inl (show (taking es s).constructed = true from hcon))]
    rfl
  have hi := statusRead_wf hc
  obtain ⟨t, ht, h, hresp⟩ :=
    run_issue (s := startJob [.read s.cfg.statAddr 1] .status (taking es s)) hp.1.2 rfl hq hi (decode_encode hi) rfl
  refine ⟨t, runs_succ hstep ht, { h with }, hresp _ 1 rfl fun k hk => ?_⟩
  rw [Nat.lt_one_iff.1 hk]
  exact stat_named _

theorem finishStatus_mode {c : Cfg} {s : State} {b : Byte} {m : OperatingMode} (hcfg : s.cfg = c) (hc : c.wf = true)
    (h : b &&& modeMask = modePattern c m) : finishStatus b s = deliver (.ok (.status (causeCode c b) m)) s := by
  simp only [finishStatus, statusMode, hcfg, h, modeOf_modePattern hc]

theorem finishStatus_noMode {c : Cfg} {s : State} {b : Byte} (hcfg : s.cfg = c)
    (h : ∀ m, b &&& modeMask ≠ modePattern c m) : finishStatus b s = raiseError (.unknownMode b) s := by
  cases hm : modeOf c (b &&& modeMask) with
  | none => simp only [finishStatus, statusMode, hcfg, hm]
  | some m => exact absurd (modeOf_some hm).symm (h m)

/-- Settles O44: the byte read is split if its mode field is a mode's pattern, and is the error's value if not. -/
theorem statusSplitsByte : Obligations.StatusSplitsByte := by
  intro s es hp hq hc hcon
  obtain ⟨t, ht, h, hresp⟩ := run_status hp hq hc hcon
  have hlast : step t = .next (finishStatus (s.reg s.cfg.statAddr) (t.setResponse [])) := by
    rw [step_finish h.wire h.job, hresp]
    rfl
  have hcfg : (t.setResponse []).cfg = s.cfg := h.cfg
  have hrun := runs_add ht (runs_one hlast)
  have hsame := h.sameTarget rfl
  by_cases hmode : ∃ m, s.reg s.cfg.statAddr &&& 0xE0 = modePattern s.cfg m
  · obtain ⟨m, hm⟩ := hmode
    rw [finishStatus_mode hcfg hc hm] at hrun
    refine ⟨_, hrun, { h.sameInstance with }, { hsame with }, h.sent, fun n hn => ?_, fun hno => absurd hm (hno m)⟩
    obtain rfl := modePattern_injective hc (hm.symm.trans hn)
    exact { h.answered _ with }
  · have hno : ∀ m, s.reg s.cfg.statAddr &&& 0xE0 ≠ modePattern s.cfg m := not_exists.1 hmode
    rw [finishStatus_noMode hcfg hno] at hrun
    refine ⟨_, hrun, { h.sameInstance with needsReinit := (Bool.or_false _).trans h.needsReinit }, { hsame with }, h.sent,
      fun m hm => absurd hm (hno m), fun _ => ?_⟩
    exact ⟨⟨rfl, rfl⟩, rfl, rfl, h.host, h.spi, h.env, h.cfg, congrArg (· ++ [_]) h.outcomes⟩

/-! ### `setMode` (R232, R234) -/

/-- The target has entered the mode `m` and was otherwise left: the control register keeps its low bits under the mode's
pattern, and the status register shows the mode. -/
structure ModeEntered (m : OperatingMode) (s t : State) : Prop where
  cfg : t.cfg = s.cfg
  mode : t.mode = m
  ctrl : t.reg s.cfg.ctrlAddr = (s.reg s.cfg.ctrlAddr &&& 0x1F) ||| modePattern s.cfg m
  stat : t.reg s.cfg.statAddr = (s.reg s.cfg.statAddr &&& 0x1F) ||| modePattern s.cfg m
  others : ∀ x, x ≠ s.cfg.ctrlAddr → x ≠ s.cfg.statAddr → t.reg x = s.reg x
  requested : t.requested = s.requested
  marks : t.marks = s.marks

theorem ModeEntered.congr {m : OperatingMode} {s u t : State} (h : ModeEntered m s u) (hcfg : t.cfg = u.cfg)
    (hsame : SameTarget u t) : ModeEntered m s t :=
  ⟨hcfg.trans h.cfg, hsame.mode.trans h.mode, (hsame.reg _).trans h.ctrl, (hsame.reg _).trans h.stat,
    fun x hx hx' => (hsame.reg x).trans (h.others x hx hx'), hsame.requested.trans h.requested,
    hsame.marks.trans h.marks⟩

/-- The BITMOD of `setMode` replaces the mode field by the mode's pattern. -/
theorem bitModify_modePattern {c : Cfg} (hc : c.wf = true) (old : Byte) (m : OperatingMode) :
    bitModify old modeMask (modePattern c m) = (old &&& 0x1F) ||| modePattern c m := by
  rw [bitModify, and_modeMask_eq (wf_pattern hc m), show ~~~modeMask = 0x1F by decide]

/-- A granted BITMOD of `setMode` makes the target enter the mode. -/
theorem setMode_effect {s : State} {m : OperatingMode} (hc : s.cfg.wf = true) (hg : modeGrant s.cfg s.mode m = true) :
    ∃ u, wholeEffect (setModeInstr s.cfg m) s = .ok u ∧ ModeEntered m s u := by
  have hfield : ((s.reg s.cfg.ctrlAddr &&& 0x1F) ||| modePattern s.cfg m) &&& modeMask = modePattern s.cfg m :=
    keep_or_and_modeMask (wf_pattern hc m)
  have hu : wholeEffect (setModeInstr s.cfg m) s = _ := modifyReg_ctrl (modePattern s.cfg m) hc (by decide)
  rw [bitModify_modePattern hc, modeRequest_controlStored hc hfield] at hu
  have h := modeRequested_controlStored ((s.reg s.cfg.ctrlAddr &&& 0x1F) ||| modePattern s.cfg m) m hc
  have hgranted := h.granted
  rw [if_pos hg] at hgranted
  exact ⟨_, hu, (wholeEffect_sameOutside hu).1.cfg, hgranted.1, h.ctrl, hgranted.2, h.others, h.requested, h.marks⟩

/-- The four steps of a granted `setMode`. -/
theorem run_setMode {s : State} {m : OperatingMode} {es : List HostEvent} (hp : Presents (.setMode m) es s)
    (hq : Quiet s) (hc : s.cfg.wf = true) (hcon : s.constructed = true) (hg : modeGrant s.cfg s.mode m = true) :
    ∃ t, Runs 4 s t ∧ Answered (.ok .unit) es s t ∧ SameInstance s t ∧ ModeEntered m s t ∧
      Sent [setModeInstr s.cfg m] s t := by
  have haccept : acceptCommand (.setMode m) (taking es s) =
      .next (startJob [setModeInstr s.cfg m] .unit (taking es s)) :=
    acceptCommand_open (.inl hcon)
  obtain ⟨u, hu, hentered⟩ := setMode_effect hc hg
  obtain ⟨t, ht, hanswer, hinst, hsame, hsent⟩ := run_unit_command (u := u) hp haccept hq (List.cons_ne_nil _ _)
    (fun i hi => by rw [List.mem_singleton.1 hi]; exact setModeInstr_wf hc m) (by simp only [effects, hu])
  exact ⟨t, ht, hanswer, hinst, hentered.congr (hanswer.cfg.trans hentered.cfg.symm) hsame, hsent⟩

/-- The cause code lies outside the mode field (R8), so entering a mode leaves it. -/
theorem wf_icodMask {c : Cfg} (h : c.wf = true) : c.icodMask &&& modeMask = 0 := by
  unfold Cfg.wf at h
  simp only [Bool.and_eq_true, decide_eq_true_eq] at h
  tauto

theorem keep_or_and_outside {x p k : Byte} (hp : p &&& modeMask = p) (hk : k &&& modeMask = 0) :
    ((x &&& 0x1F) ||| p) &&& k = x &&& k := by
  rw [← hp, ← show ~~~modeMask = (0x1F : Byte) by decide]
  exact bitModify_and_outside (BitVec.and_comm _ _ ▸ hk)

/-- Settles O43: `setMode` leaves the block idle with `status` presented, in a target that shows the mode. -/
theorem setModeThenStatus : Obligations.SetModeThenStatus := by
  intro s m es hp hq hc hcon hg
  obtain ⟨u, hu, ha, hinst, hm, hsent⟩ := run_setMode hp hq hc hcon hg
  obtain ⟨t, ht, hinst', hsame, hsent', hok, -⟩ := statusSplitsByte u es ⟨ha.idle, ha.host⟩
    ⟨ha.env.trans hq.1, ha.spi.trans hq.2⟩ (hm.cfg ▸ hc) (hinst.constructed.trans hcon)
  rw [hm.cfg] at hsent' hok
  have hfield : u.reg s.cfg.statAddr &&& 0xE0 = modePattern s.cfg m := by
    rw [hm.stat]
    exact keep_or_and_modeMask (wf_pattern hc m)
  have hcause : u.reg s.cfg.statAddr &&& s.cfg.icodMask = s.reg s.cfg.statAddr &&& s.cfg.icodMask := by
    rw [hm.stat]
    exact keep_or_and_outside (and_modeMask_eq (wf_pattern hc m)) (wf_icodMask hc)
  have ha' := hok m hfield
  have hm' := hm.congr ha'.cfg hsame
  refine ⟨t, runs_add hu ht, ha'.idle, ha'.host, hm'.mode, sameInstance_trans hinst hinst', ?_,
    sent_append hsent hsent', hm'.ctrl, hm'.stat, hm'.others, hm'.requested, hm'.marks⟩
  rw [ha'.outcomes, ha.outcomes, hcause, List.append_assoc]
  rfl

end Sys2Proof.Machine
end

section
/-! SUPPORT. Bringing up the target (R240 to R250), phase by phase: Config is entered, the registers are written, Normal is
entered; `construct` and `reinit` (O40, O41). -/

namespace Sys2Proof.Machine

open Sys2Proof.Safety

/-! ### Registers whose stores request no mode -/

/-- The map names the register, and it is neither the status nor the control register. -/
def PlainReg (c : Cfg) (a : Nat) : Prop := a ≠ c.statAddr ∧ a ≠ c.ctrlAddr ∧ isNamed c a = true

theorem plainReg_fixed {c : Cfg} {a : Nat} (hc : c.wf = true) (h : isFixedNamed a = true) : PlainReg c a := by
  obtain ⟨-, hctrl, hstat⟩ := wf_spare hc
  exact ⟨(spare_ne hstat h).symm, (spare_ne hctrl h).symm, by simp [isNamed, h]⟩

theorem plainReg_filter {c : Cfg} {a : Nat} (hc : c.wf = true) (h : isFilterByte c a = true) : PlainReg c a := by
  obtain ⟨-, hctrl, hstat⟩ := wf_spare hc
  refine ⟨?_, ?_, by simp [isNamed, h]⟩
  · rintro rfl; simp [spare_filter hstat] at h
  · rintro rfl; simp [spare_filter hctrl] at h

/-- The filters lie below 0x1C (R53). -/
theorem filterByte_lt {c : Cfg} {a : Nat} (hc : c.wf = true) (h : isFilterByte c a = true) : a < 0x1C := by
  have hf := wf_filters hc
  simp only [filterBases, List.mem_cons, List.not_mem_nil, or_false, forall_eq_or_imp, forall_eq] at hf
  simp only [isFilterByte, Bool.or_eq_true, inBlock_iff] at h
  omega

theorem isZeroed_iff {c : Cfg} {a : Nat} : isZeroed c a = true ↔
    isFilterByte c a = true ∨ (0x20 ≤ a ∧ a < 0x28) ∨ (0x30 ≤ a ∧ a < 0x3E) ∨ (0x40 ≤ a ∧ a < 0x4E) ∨
      (0x50 ≤ a ∧ a < 0x5E) ∨ a = 0x60 ∨ a = 0x70 := by
  simp only [isZeroed, Bool.or_eq_true, decide_eq_true_eq, inBlock_iff]
  by_cases hfilter : isFilterByte c a = true
  · simp only [hfilter, true_or, or_true]
  · simp only [hfilter, Bool.false_eq_true, false_or, or_false]
    omega

theorem isFixedNamed_iff {a : Nat} : isFixedNamed a = true ↔
    (0x1C ≤ a ∧ a < 0x1E) ∨ (0x20 ≤ a ∧ a < 0x2E) ∨ (0x30 ≤ a ∧ a < 0x3E) ∨ (0x40 ≤ a ∧ a < 0x4E) ∨
      (0x50 ≤ a ∧ a < 0x5E) ∨ (0x60 ≤ a ∧ a < 0x6E) ∨ (0x70 ≤ a ∧ a < 0x7E) := by
  simp only [isFixedNamed, isMaskByte, isBitTiming, isBufferByte, errCnt0Addr, cnf1Addr, inteAddr, blockLen,
    Bool.or_eq_true, inBlock_iff]
  omega

theorem isZeroed_plain {c : Cfg} {a : Nat} (hc : c.wf = true) (h : isZeroed c a = true) : PlainReg c a := by
  obtain hfilter | hfixed := isZeroed_iff.1 h
  · exact plainReg_filter hc hfilter
  · exact plainReg_fixed hc (isFixedNamed_iff.2 (by omega))

/-! ### Steps 2 to 4: registers are written (R243 to R245) -/

/-- The zeroed ranges, first address and length, in the order of the protocol. -/
def zeroRanges (c : Cfg) : List (Nat × Nat) :=
  [(0x30, 14), (0x40, 14), (0x50, 14), (0x60, 1), (0x70, 1), (c.filter0, 4), (c.filter1, 4), (c.filter2, 4),
   (c.filter3, 4), (c.filter4, 4), (c.filter5, 4), (0x20, 4), (0x24, 4)]

theorem inBlock_one (b a : Nat) : inBlock b 1 a = decide (a = b) := by
  rw [Bool.eq_iff_iff, inBlock_iff, decide_eq_true_eq]
  omega

theorem inBlock_append (b m n a : Nat) : inBlock b (m + n) a = (inBlock b m a || inBlock (b + m) n a) := by
  rw [Bool.eq_iff_iff, Bool.or_eq_true, inBlock_iff, inBlock_iff, inBlock_iff]
  omega

theorem zeroRanges_any (c : Cfg) (a : Nat) : ((zeroRanges c).any fun r => inBlock r.1 r.2 a) = isZeroed c a := by
  simp only [zeroRanges, List.any_cons, List.any_nil, isZeroed, isFilterByte, inBlock_one, inBlock_append 0x20 4 4,
    Bool.or_false, Bool.or_assoc]

/-- The byte of register `a` after WRITEs of these ranges, each given by first address and data, if it was `b`. -/
def written : List (Nat × List Byte) → Nat → Byte → Byte
  | [], _, b => b
  | w :: ws, a, b => written ws a (if inBlock w.1 w.2.length a then w.2.getD (a - w.1) 0 else b)

theorem written_append (ws vs : List (Nat × List Byte)) (a : Nat) (b : Byte) :
    written (ws ++ vs) a b = written vs a (written ws a b) := by
  induction ws generalizing b with
  | nil => rfl
  | cons w ws ih => exact ih _

theorem written_zeros (rs : List (Nat × Nat)) (a : Nat) (b : Byte) :
    written (rs.map fun r => (r.1, zeros r.2)) a b = if rs.any fun r => inBlock r.1 r.2 a then 0 else b := by
  induction rs generalizing b with
  | nil => rfl
  | cons r rs ih =>
    rw [List.map_cons, written, ih, List.any_cons]
    by_cases h : inBlock r.1 r.2 a = true
    · rw [h, Bool.true_or]
      simp [zeros, h]
    · rw [Bool.not_eq_true] at h
      rw [h, Bool.false_or]
      simp [zeros, h]

theorem written_byte (r : Nat) (v : Byte) (ws : List (Nat × List Byte)) (a : Nat) (b : Byte) :
    written ((r, [v]) :: ws) a b = written ws a (if a = r then v else b) := by
  rw [written, List.length_singleton, inBlock_one]
  by_cases h : a = r <;> simp [h]

/-- The registers were written through in these ranges, and the target was otherwise left. -/
structure Written (ws : List (Nat × List Byte)) (s t : State) : Prop where
  mode : t.mode = s.mode
  reg : ∀ a, t.reg a = written ws a (s.reg a)
  requested : t.requested = s.requested
  marks : t.marks = s.marks

/-- WRITEs of plain registers in Config: no register is protected there, so every byte is stored (R62, R67). -/
theorem effects_writes {ws : List (Nat × List Byte)} {s : State} (hm : s.mode = .config)
    (hplain : ∀ w ∈ ws, ∀ k, k < w.2.length → PlainReg s.cfg (w.1 + k)) :
    ∃ t, effects (ws.map fun w => .write w.1 w.2) s = .ok t ∧ Written ws s t := by
  induction ws generalizing s with
  | nil => exact ⟨s, rfl, rfl, fun _ => rfl, rfl, rfl⟩
  | cons w ws ih =>
    obtain ⟨u, hu, hmode, hrequested, hmarks, hreg⟩ := memWrite_plain (hplain w (by simp))
    have hcfg := (memWrite_sameOutside hu).cfg
    obtain ⟨t, ht, h⟩ := ih (hmode.trans hm) (fun v hv => hcfg ▸ hplain v (by simp [hv]))
    refine ⟨t, ?_, h.mode.trans hmode, fun a => ?_, h.requested.trans hrequested, h.marks.trans ?_⟩
    · simp only [List.map_cons, effects, wholeEffect, hu, ht]
    · rw [h.reg, hreg, written]
      simp [hm, inBlock_iff]
    · rw [hmarks]
      simp [discards, hm]

/-- The WRITEs between the two mode requests of the protocol, with the default of INTE and the bit timing `cnf`. -/
def initWrites (c : Cfg) (cnf : CnfBytes) : List (Nat × List Byte) :=
  ((zeroRanges c).map fun r => (r.1, zeros r.2)) ++
    [(inteAddr, [inteDefault c]), (cnf3Addr, [cnf.cnf3]), (cnf2Addr, [cnf.cnf2]), (cnf1Addr, [cnf.cnf1])]

theorem initSequence_eq (c : Cfg) (cnf : CnfBytes) : initSequence c cnf =
    setModeInstr c .config :: (((initWrites c cnf).map fun w => .write w.1 w.2) ++ [setModeInstr c .normal]) := rfl

theorem initSequence_eq_bringUp (c : Cfg) (cnf : CnfBytes) : initSequence c cnf = bringUp c cnf := rfl

theorem initWrites_plain {c : Cfg} (hc : c.wf = true) (cnf : CnfBytes) :
    ∀ w ∈ initWrites c cnf, ∀ k, k < w.2.length → PlainReg c (w.1 + k) := by
  intro w hw k hk
  obtain hzero | hbyte := List.mem_append.1 hw
  · obtain ⟨r, hr, rfl⟩ := List.mem_map.1 hzero
    refine isZeroed_plain hc ?_
    rw [← zeroRanges_any]
    exact List.any_eq_true.2 ⟨r, hr, inBlock_iff.2 (by simpa [zeros] using hk)⟩
  · refine plainReg_fixed hc (isFixedNamed_iff.2 ?_)
    simp only [List.mem_cons, List.not_mem_nil, or_false] at hbyte
    obtain rfl | rfl | rfl | rfl := hbyte <;>
      simp only [List.length_cons, List.length_nil, inteAddr, cnf1Addr, cnf2Addr, cnf3Addr] at hk ⊢ <;> omega

theorem written_initWrites (c : Cfg) (cnf : CnfBytes) (a : Nat) (b : Byte) : written (initWrites c cnf) a b =
    if a = 0x28 then cnf.cnf1 else if a = 0x29 then cnf.cnf2 else if a = 0x2A then cnf.cnf3
    else if a = 0x2B then inteDefault c else if isZeroed c a then 0x00 else b := by
  simp only [initWrites, written_append, written_zeros, zeroRanges_any, written_byte]
  rfl

theorem written_initWrites_zeroed {c : Cfg} {a : Nat} (hc : c.wf = true) (cnf : CnfBytes) (b : Byte)
    (h : isZeroed c a = true) : written (initWrites c cnf) a b = 0x00 := by
  have hapart : a < 0x28 ∨ 0x2B < a := by
    obtain hfilter | hfixed := isZeroed_iff.1 h
    · have := filterByte_lt hc hfilter
      omega
    · omega
  rw [written_initWrites, if_neg (by omega), if_neg (by omega), if_neg (by omega), if_neg (by omega), if_pos h]

theorem written_initWrites_other {c : Cfg} {a : Nat} (cnf : CnfBytes) (b : Byte) (h : isZeroed c a = false)
    (ha : a ∉ [0x28, 0x29, 0x2A, 0x2B]) : written (initWrites c cnf) a b = b := by
  simp only [List.mem_cons, List.not_mem_nil, or_false, not_or] at ha
  obtain ⟨h1, h2, h3, h4⟩ := ha
  rw [written_initWrites, if_neg h1, if_neg h2, if_neg h3, if_neg h4, h]
  rfl

/-- The control and the status register are not written. -/
theorem written_initWrites_spare {c : Cfg} {a : Nat} (cnf : CnfBytes) (b : Byte) (hc : c.wf = true)
    (ha : ¬ PlainReg c a) : written (initWrites c cnf) a b = b := by
  refine written_initWrites_other cnf b (Bool.eq_false_iff.2 fun h => ha (isZeroed_plain hc h)) fun hmem => ha ?_
  refine plainReg_fixed hc (isFixedNamed_iff.2 ?_)
  simp only [List.mem_cons, List.not_mem_nil, or_false] at hmem
  omega

/-! ### The three phases (R240) -/

theorem wf_grants_config {c : Cfg} (h : c.wf = true) (m : OperatingMode) : modeGrant c m .config = true := by
  unfold Cfg.wf at h
  simp only [Bool.and_eq_true, List.all_eq_true, decide_eq_true_eq] at h
  obtain ⟨-, hdenied⟩ := h
  simpa [modeGrant] using fun hmem => hdenied (m, .config) hmem rfl

theorem effects_append {is js : List Instr} {s t : State} (h : effects is s = .ok t) :
    effects (is ++ js) s = effects js t := by
  induction is generalizing s with
  | nil => cases h; rfl
  | cons i is ih =>
    simp only [effects, List.cons_append] at h ⊢
    cases hi : wholeEffect i s with
    | error r => rw [hi] at h; cases h
    | ok u => rw [hi] at h; exact ih h

/-- The protocol enters Config, writes its registers and enters Normal. -/
theorem initSequence_effects {s : State} (cnf : CnfBytes) (hc : s.cfg.wf = true)
    (hg : modeGrant s.cfg .config .normal = true) :
    ∃ v w u, effects (initSequence s.cfg cnf) s = .ok u ∧ ModeEntered .config s v ∧
      Written (initWrites s.cfg cnf) v w ∧ ModeEntered .normal w u := by
  obtain ⟨v, hv, hconfig⟩ := setMode_effect hc (wf_grants_config hc s.mode)
  obtain ⟨w, hw, hwritten⟩ := effects_writes (s := v) (ws := initWrites s.cfg cnf) hconfig.mode
    (by rw [hconfig.cfg]; exact initWrites_plain hc cnf)
  have hcfg : w.cfg = s.cfg := (effects_sameOutside hw).1.cfg.trans hconfig.cfg
  obtain ⟨u, hu, hnormal⟩ := setMode_effect (s := w) (m := .normal) (hcfg ▸ hc)
    (by rw [hcfg, hwritten.mode, hconfig.mode]; exact hg)
  refine ⟨v, w, u, ?_, hconfig, hwritten, hnormal⟩
  rw [hcfg] at hu
  simp only [initSequence_eq, effects, hv, effects_append hw, hu]

/-- The low bits of a register survive two changes of its mode field. -/
theorem modeField_twice {c : Cfg} (hc : c.wf = true) (x : Byte) (m n : OperatingMode) :
    ((((x &&& 0x1F) ||| modePattern c m) &&& 0x1F) ||| modePattern c n) = (x &&& 0x1F) ||| modePattern c n := by
  rw [keep_or_and_outside (and_modeMask_eq (wf_pattern hc m)) (by decide)]

/-- Entering Config, then writing the registers, then entering Normal is the post-condition (R249 d, R250). -/
theorem broughtUp_of_phases {cnf : CnfBytes} {s v w t : State} (hc : s.cfg.wf = true) (hcfg : w.cfg = s.cfg)
    (hconfig : ModeEntered .config s v) (hwritten : Written (initWrites s.cfg cnf) v w)
    (hnormal : ModeEntered .normal w t) (hsent : Sent (initSequence s.cfg cnf) s t) : BroughtUp cnf s t := by
  obtain ⟨-, hmode, hctrl, hstat, hothers, hrequested, hmarks⟩ := hnormal
  rw [hcfg] at hctrl hstat hothers
  have hreg : ∀ a, a ≠ s.cfg.ctrlAddr → a ≠ s.cfg.statAddr →
      t.reg a = written (initWrites s.cfg cnf) a (s.reg a) := fun a ha ha' => by
    rw [hothers a ha ha', hwritten.reg, hconfig.others a ha ha']
  have hfixed : ∀ a, isFixedNamed a = true → t.reg a = written (initWrites s.cfg cnf) a (s.reg a) := fun a ha => by
    obtain ⟨hnestat, hnectrl, -⟩ := plainReg_fixed hc ha
    exact hreg a hnectrl hnestat
  constructor
  case cnf1 => rw [hfixed _ (by decide), written_initWrites]; rfl
  case cnf2 => rw [hfixed _ (by decide), written_initWrites]; rfl
  case cnf3 => rw [hfixed _ (by decide), written_initWrites]; rfl
  case inte => rw [hfixed _ (by decide), written_initWrites]; rfl
  case zeroed =>
    intro a ha
    obtain ⟨hnestat, hnectrl, -⟩ := isZeroed_plain hc ha
    rw [hreg a hnectrl hnestat, written_initWrites_zeroed hc cnf _ ha]
  case ctrl =>
    rw [hctrl, hwritten.reg, written_initWrites_spare cnf _ hc fun h => h.2.1 rfl, hconfig.ctrl]
    exact modeField_twice hc _ .config .normal
  case stat =>
    rw [hstat, hwritten.reg, written_initWrites_spare cnf _ hc fun h => h.1 rfl, hconfig.stat]
    exact modeField_twice hc _ .config .normal
  case mode => exact hmode
  case others =>
    intro a ha hmem
    simp only [List.mem_cons, List.not_mem_nil, or_false, not_or] at hmem
    obtain ⟨h1, h2, h3, h4, hnectrl, hnestat⟩ := hmem
    rw [hreg a hnectrl hnestat, written_initWrites_other cnf _ ha (by simp [h1, h2, h3, h4])]
  case requested => exact hrequested.trans (hwritten.requested.trans hconfig.requested)
  case unmarked => exact hmarks.trans (hwritten.marks.trans hconfig.marks)
  case sent => exact initSequence_eq_bringUp s.cfg cnf ▸ hsent

/-! ### The two commands (R240, R248) -/

theorem broughtUp_congr {cnf : CnfBytes} {s t v : State} (h : BroughtUp cnf s t) (hsame : SameTarget t v)
    (htrace : v.trace = t.trace) : BroughtUp cnf s v where
  cnf1 := (hsame.reg _).trans h.cnf1
  cnf2 := (hsame.reg _).trans h.cnf2
  cnf3 := (hsame.reg _).trans h.cnf3
  inte := (hsame.reg _).trans h.inte
  zeroed a ha := (hsame.reg a).trans (h.zeroed a ha)
  ctrl := (hsame.reg _).trans h.ctrl
  stat := (hsame.reg _).trans h.stat
  mode := hsame.mode.trans h.mode
  others a ha hmem := (hsame.reg a).trans (h.others a ha hmem)
  requested := hsame.requested.trans h.requested
  unmarked := hsame.marks.trans h.unmarked
  sent := by unfold Sent; rw [htrace]; exact h.sent

/-- A command accepted with the protocol as its queue brings the target up: one step, and two for each instruction. -/
theorem run_initSequence {s s₁ : State} {cnf : CnfBytes} {f : Finish} (hc : s.cfg.wf = true)
    (hg : modeGrant s.cfg .config .normal = true) (hstep : step s = .next (startJob (initSequence s.cfg cnf) f s₁))
    (htarget : withTarget s s₁ = s₁) (htrace : s₁.trace = s.trace) (hw : s₁.wire = none) (hq : Quiet s₁) :
    ∃ t u, Runs 39 s t ∧ Issued (initSequence s.cfg cnf) [] f s₁ u t ∧ BroughtUp cnf s t := by
  obtain ⟨v, w, u, hu, hconfig, hwritten, hnormal⟩ := initSequence_effects cnf hc hg
  obtain ⟨t, ht, h⟩ := run_accepted hstep htarget hw hq (List.cons_ne_nil _ _) (initSequence_wf hc cnf) hu
  have hcfg₁ : s₁.cfg = s.cfg := (congrArg State.cfg htarget).symm
  have hcfg : u.cfg = s.cfg := (effects_sameOutside hu).1.cfg
  have hcfgw : w.cfg = s.cfg := hnormal.cfg.symm.trans hcfg
  refine ⟨t, u, ht, h, broughtUp_of_phases hc hcfgw hconfig hwritten
    (hnormal.congr (h.cfg.trans (hcfg₁.trans hcfg.symm)) (h.sameTarget (hcfg.trans hcfg₁.symm))) ?_⟩
  obtain ⟨tr, htr, hsent⟩ := h.sent
  exact ⟨tr, htr.trans (congrArg (· ++ tr) htrace), hsent⟩

/-- A row of a legal table is in the range of packing (R202, R208). -/
theorem resolve_wf {c : Cfg} {osc br : Nat} {tp : TimingParameters} (hc : c.wf = true)
    (h : resolve c.timingTable osc br = some tp) : tp.wf = true := by
  obtain ⟨hsome, -, -⟩ := resolveFirstMatch c.timingTable osc br
  obtain ⟨pre, r, post, htable, -, -, rfl, -⟩ := (hsome tp).1 h
  unfold Cfg.wf at hc
  simp only [Bool.and_eq_true, List.all_eq_true] at hc
  obtain ⟨⟨-, hrows⟩, -⟩ := hc
  exact hrows r (by simp [htable])

/-- Settles O40: the keys and the tuple are stored at once, and the block is constructed when the protocol is through. -/
theorem constructBringsUp : Obligations.ConstructBringsUp := by
  intro s osc br tp es hp hq hc hr hg
  have hpack := packCNF_of_wf (resolve_wf hc hr)
  have hstep : step s = .next (startJob (initSequence s.cfg (cnfBytes tp)) .construct
      (beginInstance osc br tp (taking es s))) := by
    rw [step_presents hp, acceptCommand_open (.inr rfl)]
    simp only [acceptOpen, acceptConstruct, taking_cfg, hr, hpack]
  obtain ⟨t, u, ht, h, hup⟩ := run_initSequence hc hg hstep rfl rfl hp.1.2 hq
  have hlast : step t = .next (deliver (.ok .unit) (instanceReady (t.setResponse []))) := step_finish h.wire h.job
  exact ⟨_, _, hpack, runs_add ht (runs_one hlast),
    { h.answered (.ok .unit) with }, broughtUp_congr hup ⟨fun _ => rfl, rfl, rfl, rfl⟩ rfl,
    rfl, rfl, h.tp, h.osc, h.bitrate⟩

/-- Settles O41: the same queue, with the stored tuple. -/
theorem reinitBringsUp : Obligations.ReinitBringsUp := by
  intro s tp es hp hq hc hcon htp hwf hg
  have hpack := packCNF_of_wf hwf
  have hstep : step s = .next (startJob (initSequence s.cfg (cnfBytes tp)) .reinit (taking es s)) := by
    rw [step_presents hp, acceptCommand_open (.inl (show (taking es s).constructed = true from hcon))]
    simp only [acceptOpen, acceptReinit, show (taking es s).tp = some tp from htp, hpack, taking_cfg]
  obtain ⟨t, u, ht, h, hup⟩ := run_initSequence hc hg hstep rfl rfl hp.1.2 hq
  have hlast : step t = .next (deliver (.ok .unit) (reinitDone (t.setResponse []))) := step_finish h.wire h.job
  exact ⟨_, _, hpack, runs_add ht (runs_one hlast),
    { h.answered (.ok .unit) with }, broughtUp_congr hup ⟨fun _ => rfl, rfl, rfl, rfl⟩ rfl,
    h.constructed.trans hcon, rfl, h.tp, h.osc, h.bitrate⟩

end Sys2Proof.Machine
end

section
/-! SUPPORT. The commands that touch one buffer and issue a fixed queue: `clearRxFlag` and `send` (O49, O50). -/

namespace Sys2Proof.Machine

open Sys2Proof.Safety

/-! ### The gate, and registers that are never protected -/

/-- A constructed block lets every command past the gate (R23). -/
theorem acceptCommand_constructed {s : State} (hcon : s.constructed = true) (c : Command) (es : List HostEvent) :
    acceptCommand c (taking es s) = acceptOpen c (taking es s) := acceptCommand_open (.inl hcon)

/-- The protected registers lie below the interrupt registers (R52, R62). -/
theorem protected_lt {c : Cfg} {a : Nat} (hc : c.wf = true) (h : isProtected c a = true) : a < 0x2B := by
  simp only [isProtected, isMaskByte, isBitTiming, cnf1Addr, Bool.or_eq_true, inBlock_iff] at h
  obtain (hfilter | hmask) | htiming := h
  · have := filterByte_lt hc hfilter
    omega
  · omega
  · omega

theorem unprotected_of_ge {c : Cfg} {a : Nat} (hc : c.wf = true) (h : 0x2B ≤ a) : ¬ isProtected c a = true :=
  fun hp => absurd (protected_lt hc hp) (Nat.not_lt.2 h)

/-! ### `clearRxFlag` (R264, R265) -/

/-- The full flag of buffer `n` was cleared, and the target was otherwise left. -/
structure FlagCleared (n : RxBuf) (s t : State) : Prop where
  mode : t.mode = s.mode
  requested : t.requested = s.requested
  marks : t.marks = s.marks
  reg : ∀ x, t.reg x = if x = 0x2C then s.reg 0x2C &&& ~~~rxFlag s.cfg n else s.reg x

theorem FlagCleared.congr {n : RxBuf} {s u t : State} (h : FlagCleared n s u) (hsame : SameTarget u t) :
    FlagCleared n s t :=
  ⟨hsame.mode.trans h.mode, hsame.requested.trans h.requested, hsame.marks.trans h.marks,
    fun x => (hsame.reg x).trans (h.reg x)⟩

theorem bitModify_zero (old mask : Byte) : bitModify old mask 0 = old &&& ~~~mask := by simp [bitModify]

/-- The flag register is writable and holds no mode field, so the BITMOD of `clearRxFlag` takes its effect. -/
theorem clearFlag_effect {s : State} (n : RxBuf) (hc : s.cfg.wf = true) :
    ∃ u, wholeEffect (clearFlagInstr s.cfg n) s = .ok u ∧ FlagCleared n s u := by
  obtain ⟨hstat, hctrl, hnamed⟩ := plainReg_fixed (a := intfAddr) hc (by decide)
  have hwritable : Writable s intfAddr := ⟨hstat, hnamed, fun h => unprotected_of_ge hc (by decide) h.1⟩
  refine ⟨_, modifyReg_writable hwritable fun h => absurd h hctrl, rfl, rfl, rfl, fun x => ?_⟩
  rw [reg_setReg, bitModify_zero]
  rfl

/-- Settles O49: the one BITMOD of the flag register, whether the flag was set or not. -/
theorem clearRxFlagClearsOne : Obligations.ClearRxFlagClearsOne := by
  intro s es n flag hp hq hc hcon hbuf
  obtain ⟨b, hn, rfl⟩ : ∃ b, rxBufOf n = some b ∧ flag = rxFlag s.cfg b := by
    obtain ⟨rfl, rfl⟩ | ⟨rfl, rfl⟩ := hbuf
    · exact ⟨.rxb0, rfl, rfl⟩
    · exact ⟨.rxb1, rfl, rfl⟩
  have haccept : acceptCommand (.clearRxFlag n) (taking es s) =
      .next (startJob [clearFlagInstr s.cfg b] .unit (taking es s)) := by
    simp only [acceptCommand_constructed hcon, acceptOpen, acceptClearRxFlag, hn, taking_cfg]
  obtain ⟨u, hu, hcleared⟩ := clearFlag_effect b hc
  obtain ⟨t, ht, hanswer, hinst, hsame, hsent⟩ := run_unit_command (u := u) hp haccept hq (List.cons_ne_nil _ _)
    (fun i hi => by rw [List.mem_singleton.1 hi]; exact clearFlagInstr_wf _ b) (by simp only [effects, hu])
  obtain ⟨hmode, hrequested, hmarks, hreg⟩ := hcleared.congr hsame
  exact ⟨t, ht, hanswer, hinst, hmode, hrequested, hmarks, hreg, hsent⟩

/-! ### `send` (R272, R273) -/

/-- The requests with that of buffer `n` among them. -/
def addRequest (r : TxRequests) : TxBuf → TxRequests
  | .txb0 => { r with txb0 := true }
  | .txb1 => { r with txb1 := true }
  | .txb2 => { r with txb2 := true }

theorem wholeEffect_write (a : Nat) (d : List Byte) (s : State) : wholeEffect (.write a d) s = memWrite a d s := rfl

theorem wholeEffect_rtsInstr (n : TxBuf) (s : State) :
    wholeEffect (rtsInstr n) s = .ok (s.setRequested (addRequest s.requested n)) := by
  cases n <;> simp [rtsInstr, wholeEffect, requestTx, addRequest]

theorem sendInstrs_eq (n : TxBuf) (h : Header) (p : List Byte) : sendInstrs n h p =
    .write (txBase n) (headerBytes h) :: (if p = [] then [] else [.write (txBase n + 6) p]) ++ [rtsInstr n] := by
  cases p <;> rfl

/-- The header and the payload go into consecutive registers, so the two WRITEs store what one would (R149 b). -/
theorem effects_sendInstrs (n : TxBuf) (h : Header) (p : List Byte) (s : State) : effects (sendInstrs n h p) s =
    (memWrite (txBase n) (headerBytes h ++ p) s).map fun u => u.setRequested (addRequest u.requested n) := by
  rw [memWrite_append]
  cases hw : memWrite (txBase n) (headerBytes h) s with
  | error r => cases p <;> simp only [sendInstrs, effects, wholeEffect_write, hw] <;> rfl
  | ok v =>
    cases p with
    | nil => simp only [sendInstrs, effects, wholeEffect_rtsInstr, wholeEffect_write, hw]; rfl
    | cons b bs =>
      have hlen : (headerBytes h).length = hdrLen := rfl
      simp only [sendInstrs, effects, wholeEffect_rtsInstr, wholeEffect_write, hw, hlen, Except.bind]
      cases memWrite (txBase n + hdrLen) (b :: bs) v <;> rfl

/-- Transmit buffer `n` holds the header and the payload and is requested, and the target was otherwise left. -/
structure BufferLoaded (n : TxBuf) (h : Header) (p : List Byte) (s t : State) : Prop where
  mode : t.mode = s.mode
  marks : t.marks = s.marks
  requested : t.requested = addRequest s.requested n
  reg : ∀ x, t.reg x =
    if txBase n ≤ x ∧ x < txBase n + 6 + p.length then (headerBytes h ++ p).getD (x - txBase n) 0 else s.reg x

section BufferLoaded

variable {n : TxBuf} {h : Header} {p : List Byte} {s u t : State}

theorem BufferLoaded.congr (hl : BufferLoaded n h p s u) (hsame : SameTarget u t) : BufferLoaded n h p s t :=
  ⟨hsame.mode.trans hl.mode, hsame.marks.trans hl.marks, hsame.requested.trans hl.requested,
    fun x => (hsame.reg x).trans (hl.reg x)⟩

theorem BufferLoaded.reg_inside (hl : BufferLoaded n h p s t) {k : Nat} (hk : k < 6 + p.length) :
    t.reg (txBase n + k) = (headerBytes h ++ p).getD k 0 := by
  rw [hl.reg, if_pos (by omega), Nat.add_sub_cancel_left]

theorem BufferLoaded.header (hl : BufferLoaded n h p s t) : headerAt t (txBase n) = h := by
  have hbyte : ∀ k, k < 6 → t.reg (txBase n + k) = (headerBytes h ++ p).getD k 0 :=
    fun k hk => hl.reg_inside (by omega)
  unfold headerAt
  rw [hbyte 1 (by decide), hbyte 2 (by decide), hbyte 3 (by decide), hbyte 4 (by decide), hbyte 5 (by decide),
    show t.reg (txBase n) = _ from hbyte 0 (by decide)]
  rfl

theorem BufferLoaded.payload (hl : BufferLoaded n h p s t) : regsAt t (txBase n + 6) p.length = p := by
  refine List.ext_getElem (by simp [regsAt]) fun k _ hk => ?_
  have hget : t.reg (txBase n + 6 + k) = (headerBytes h ++ p).getD (6 + k) 0 := by
    rw [Nat.add_assoc, hl.reg_inside (by omega)]
  simp only [regsAt, List.getElem_map, List.getElem_range, hget]
  rw [List.getD_append_right _ _ _ _ (Nat.le_add_right 6 k)]
  simp [headerBytes, hk]

theorem BufferLoaded.others (hl : BufferLoaded n h p s t) {x : Nat}
    (hx : x < txBase n ∨ txBase n + 6 + p.length ≤ x) : t.reg x = s.reg x := by
  rw [hl.reg, if_neg (by omega)]

end BufferLoaded

/-- No register of a transmit block is protected, so in every mode the queue of `send` loads the buffer (R57, R62). -/
theorem sendInstrs_load {s : State} {p : List Byte} (n : TxBuf) (h : Header) (hc : s.cfg.wf = true)
    (hp : p.length ≤ 8) : ∃ u, effects (sendInstrs n h p) s = .ok u ∧ BufferLoaded n h p s u := by
  have hlen : (headerBytes h ++ p).length = 6 + p.length := List.length_append
  have hplain : ∀ k, k < (headerBytes h ++ p).length → PlainReg s.cfg (txBase n + k) := fun k hk =>
    plainReg_fixed hc (isFixedNamed_iff.2 (by cases n <;> simp only [txBase] <;> omega))
  have hbase : 0x2B ≤ txBase n := by cases n <;> decide
  obtain ⟨v, hv, hmode, hrequested, hmarks, hreg⟩ := memWrite_plain hplain
  refine ⟨v.setRequested (addRequest v.requested n), by rw [effects_sendInstrs, hv]; rfl, hmode, ?_,
    congrArg (addRequest · n) hrequested, fun x => ?_⟩
  · have hnone : discards s.cfg s.mode (txBase n) (headerBytes h ++ p).length = [] := by
      simp [discards, unprotected_of_ge hc (Nat.le_add_right_of_le hbase)]
    exact hmarks.trans (by rw [hnone, List.append_nil])
  · rw [reg_setRequested, hreg, hlen, ← Nat.add_assoc]
    by_cases hx : txBase n ≤ x
    · simp [unprotected_of_ge hc (hbase.trans hx)]
    · simp [hx]

/-- Settles O50: the queue of `send` in each of the three buffers. -/
theorem sendLoadsBuffer : Obligations.SendLoadsBuffer := by
  intro s es f n h base rts req hp hq hc hcon henc hbuf
  obtain ⟨b, hn, rfl, rfl, rfl⟩ : ∃ b, txBufOf n = some b ∧ base = txBase b ∧ rts = rtsInstr b ∧
      req = addRequest s.requested b := by
    obtain ⟨rfl, rfl, rfl, rfl⟩ | ⟨rfl, rfl, rfl, rfl⟩ | ⟨rfl, rfl, rfl, rfl⟩ := hbuf
    · exact ⟨.txb0, rfl, rfl, rfl, rfl⟩
    · exact ⟨.txb1, rfl, rfl, rfl, rfl⟩
    · exact ⟨.txb2, rfl, rfl, rfl, rfl⟩
  have haccept : acceptCommand (.send f n) (taking es s) =
      .next (startJob (sendInstrs b h f.data) .unit (taking es s)) := by
    simp only [acceptCommand_constructed hcon, acceptOpen, acceptSend, hn, taking_cfg, henc]
  have hlen : f.data.length ≤ 8 := encodeFrame_some henc
  have hqueue := sendInstrs_eq b h f.data
  obtain ⟨u, hu, hloaded⟩ := sendInstrs_load b h hc hlen
  obtain ⟨t, ht, hanswer, hinst, hsame, hsent⟩ :=
    run_unit_command hp haccept hq (by simp [hqueue]) (sendInstrs_wf hlen) hu
  have hl := hloaded.congr hsame
  have hcount : 2 + 2 * (sendInstrs b h f.data).length = if f.data = [] then 6 else 8 := by
    rw [hqueue]
    split <;> rfl
  exact ⟨t, hcount ▸ ht, hanswer, hinst, hl.mode, hl.marks, hl.requested, hl.header, hl.payload, fun x => hl.others,
    hqueue ▸ hsent⟩

end Sys2Proof.Machine
end

section
/-! SUPPORT. `poll`, whose later instructions depend on what its READs return (R266): O45, O46, O47. -/

namespace Sys2Proof.Machine

open Sys2Proof.Safety

/-! ### A command that goes on after its queue -/

/-- A command whose finish queues one more instruction: one step to queue it, two to issue it. -/
theorem Issued.issue_next {is : List Instr} {i : Instr} {f g : Finish} {s u v t : State} (h : Issued is [] f s u t)
    (hq : Quiet s) (hcfg : u.cfg = s.cfg) (hi : i.wf = true)
    (hnext : finishJob f t.response (t.setResponse []) = .next (startJob [i] g (t.setResponse [])))
    (hv : wholeEffect i u = .ok v) :
    ∃ t', Runs 3 t t' ∧ Issued (is ++ [i]) [] g s v t' ∧
      ∀ a n, i = .read a n → (∀ k, k < n → isNamed s.cfg (a + k) = true) → t'.response = regsAt u a n := by
  have hstep : step t = .next (startJob [i] g (t.setResponse [])) := (step_finish h.wire h.job).trans hnext
  have htarget : withTarget u t = t := by
    simp only [withTarget, ← h.mem, ← h.mode, ← h.requested, ← h.marks, hcfg, ← h.cfg]
  have hv' : wholeEffect i (startJob [i] g (t.setResponse [])) =
      .ok (withTarget v (startJob [i] g (t.setResponse []))) := by
    rw [← congrArg (fun w => startJob [i] g (State.setResponse w [])) htarget]
    exact (wholeEffect_withTarget i u (startJob [i] g (t.setResponse []))).trans (by rw [hv]; rfl)
  obtain ⟨w, hw, k, hresp⟩ := run_issue (s := startJob [i] g (t.setResponse [])) h.wire rfl
    ⟨h.env.trans hq.1, h.spi.trans hq.2⟩ hi (decode_encode hi) hv'
  refine ⟨w, runs_succ hstep hw, ?_, fun a n hr hn => ?_⟩
  · exact ⟨k.cfg.trans h.cfg, k.mem, k.mode, k.requested, k.marks, k.job, k.wire, k.released, k.window,
      k.constructed.trans h.constructed, k.tp.trans h.tp, k.osc.trans h.osc, k.bitrate.trans h.bitrate,
      k.needsReinit.trans h.needsReinit, k.host.trans h.host, k.spi.trans h.spi, k.env.trans h.env,
      k.outcomes.trans h.outcomes, sent_append h.sent k.sent⟩
  · rw [hresp a n hr (h.cfg ▸ hn)]
    exact regsAt_congr (h.sameTarget hcfg) a n

/-- An error raised after the queue, not the transport's, is the command's answer and leaves the block's record. -/
theorem Issued.raised {is rest : List Instr} {f : Finish} {s u t : State} (h : Issued is rest f s u t) {e : CmdError}
    (he : e.needsReinit = false) : Answered (.error e) s.host s (raiseError e t) ∧ SameInstance s (raiseError e t) := by
  have hneeds : (raiseError e t).needsReinit = s.needsReinit := by
    rw [raiseError_needsReinit, he, Bool.or_false, h.needsReinit]
  exact ⟨⟨⟨rfl, rfl⟩, rfl, rfl, h.host, h.spi, h.env, h.cfg, congrArg (· ++ [CmdOutcome.error e]) h.outcomes⟩,
    { h.sameInstance with needsReinit := hneeds }⟩

/-! ### The buffer that is served (R266, R267) -/

/-- The flag byte `b` makes `poll` serve this buffer: buffer 0 before buffer 1. -/
def Serves (c : Cfg) (b : Byte) : RxBuf → Prop
  | .rxb0 => b &&& c.rx0if ≠ 0
  | .rxb1 => b &&& c.rx0if = 0 ∧ b &&& c.rx1if ≠ 0

theorem flagSet_iff {b m : Byte} : flagSet b m = true ↔ b &&& m ≠ 0 := decide_eq_true_iff

theorem flagSet_eq_false_iff {b m : Byte} : flagSet b m = false ↔ b &&& m = 0 := by
  rw [← Bool.not_eq_true, flagSet_iff, not_not]

theorem finishPollFlags_serves {c : Cfg} {b : Byte} {n : RxBuf} {s : State} (hcfg : s.cfg = c) (h : Serves c b n) :
    finishPollFlags b s = startJob [headerRead n] (.header n true) s := by
  subst hcfg
  cases n with
  | rxb0 => rw [finishPollFlags, flagSet_iff.2 h, if_pos rfl]
  | rxb1 =>
    obtain ⟨h0, h1⟩ := h
    rw [finishPollFlags, flagSet_eq_false_iff.2 h0, flagSet_iff.2 h1, if_neg Bool.false_ne_true, if_pos rfl]

theorem finishPollFlags_none {c : Cfg} {b : Byte} {s : State} (hcfg : s.cfg = c) (h0 : b &&& c.rx0if = 0)
    (h1 : b &&& c.rx1if = 0) : finishPollFlags b s = deliver (.ok .noFrame) s := by
  subst hcfg
  rw [finishPollFlags, flagSet_eq_false_iff.2 h0, flagSet_eq_false_iff.2 h1, if_neg Bool.false_ne_true,
    if_neg Bool.false_ne_true]

theorem named_of_fixed {c : Cfg} {a : Nat} (h : isFixedNamed a = true) : isNamed c a = true := by simp [isNamed, h]

/-- Registers of a receive block are named (R56). -/
theorem rxBlock_range_named (c : Cfg) (n : RxBuf) {a m : Nat} (h : a + m ≤ blockLen) :
    ∀ k, k < m → isNamed c (rxBase n + a + k) = true := by
  intro k hk
  exact named_of_fixed (rxBlock_named (n := n) (inBlock_iff.2 (by omega)))

/-! ### The READs of `poll` -/

section Poll

variable {s : State} {es : List HostEvent} (hp : Presents .poll es s) (hq : Quiet s) (hcon : s.constructed = true)
include hp hq hcon

/-- Three steps of `poll`: the flag register has been read, and what it held decides next (R266). -/
theorem run_poll_flags :
    ∃ t, Runs 3 s t ∧ Issued [.read 0x2C 1] [] .pollFlags (taking es s) s t ∧
      finishJob .pollFlags t.response (t.setResponse []) = .next (finishPollFlags (s.reg 0x2C) (t.setResponse [])) := by
  have hstep : step s = .next (startJob [.read intfAddr 1] .pollFlags (taking es s)) := by
    rw [step_presents hp, acceptCommand_constructed hcon]
    rfl
  have hi : (Instr.read intfAddr 1).wf = true := by decide
  obtain ⟨t, ht, h, hresp⟩ :=
    run_issue (s := startJob [.read intfAddr 1] .pollFlags (taking es s)) hp.1.2 rfl hq hi (decode_encode hi) rfl
  have hbyte : t.response = [s.reg 0x2C] := by
    refine hresp _ 1 rfl fun k hk => ?_
    rw [Nat.lt_one_iff.1 hk]
    exact named_of_fixed (by decide)
  exact ⟨t, runs_succ hstep ht, { h with }, by rw [hbyte]; rfl⟩

/-- Six steps of `poll` with a buffer to serve: its header has been read, and is decoded next (R262, R266). -/
theorem run_poll_header {n : RxBuf} (hs : Serves s.cfg (s.reg 0x2C) n) :
    ∃ t, Runs 6 s t ∧ Issued [.read 0x2C 1, .read (rxBase n) 6] [] (.header n true) (taking es s) s t ∧
      finishJob (.header n true) t.response (t.setResponse []) =
        .next (finishHeader (headerAt s (rxBase n)) n true (t.setResponse [])) := by
  obtain ⟨t, ht, h, hdecide⟩ := run_poll_flags hp hq hcon
  rw [finishPollFlags_serves (s := t.setResponse []) h.cfg hs] at hdecide
  obtain ⟨w, hw, k, hresp⟩ := h.issue_next hq rfl (headerRead_wf n) hdecide rfl
  refine ⟨w, runs_add ht hw, k, ?_⟩
  rw [hresp _ 6 rfl (rxBlock_range_named _ n (a := 0) (by decide))]
  rfl

/-- Once `poll` has read the frame of the buffer it serves, the flag is cleared next (R262, R266). -/
theorem run_poll_frame {n : RxBuf} {id : Id32} {dlc : Nat} (hs : Serves s.cfg (s.reg 0x2C) n)
    (hd : decodeHeader s.cfg (headerAt s (rxBase n)) = .ok (id, dlc)) :
    ∃ t f, Runs (if dlc = 0 then 6 else 9) s t ∧
      Issued ([.read 0x2C 1, .read (rxBase n) 6] ++ (if dlc = 0 then [] else [.read (rxBase n + 6) dlc])) [] f
        (taking es s) s t ∧
      finishJob f t.response (t.setResponse []) = .next (startJob [clearFlagInstr s.cfg n]
        (.frame ⟨id, regsAt s (rxBase n + 6) dlc⟩) (t.setResponse [])) := by
  obtain ⟨t, ht, h, hheader⟩ := run_poll_header hp hq hcon hs
  have hcfg : (t.setResponse []).cfg = s.cfg := h.cfg
  by_cases h0 : dlc = 0
  · subst h0
    refine ⟨t, _, ht, h, hheader.trans ?_⟩
    simp only [finishHeader, hcfg, hd, frameRead]
    rfl
  · have hpos := Nat.pos_of_ne_zero h0
    have hdlc : dlc ≤ 8 := decodeHeader_ok hd
    simp only [finishHeader, hcfg, hd, gt_iff_lt, hpos, if_true] at hheader
    obtain ⟨w, hw, k, hresp⟩ := h.issue_next hq rfl (payloadRead_wf hpos hdlc) hheader rfl
    rw [if_neg h0, if_neg h0]
    refine ⟨w, _, runs_add ht hw, k, ?_⟩
    have hdata : w.response = regsAt s (rxBase n + hdrLen) dlc :=
      hresp _ dlc rfl (rxBlock_range_named _ n (by simp only [hdrLen, blockLen]; omega))
    have hcfg' : (w.setResponse []).cfg = s.cfg := k.cfg
    simp only [finishJob, frameRead, hdata, hcfg', if_true]
    rfl

end Poll

/-! ### The answers of `poll` -/

/-- Settles O45: the flag byte is read, and no buffer is served. -/
theorem pollWithoutFlag : Obligations.PollWithoutFlag := by
  intro s es hp hq hcon h0 h1
  obtain ⟨t, ht, h, hdecide⟩ := run_poll_flags hp hq hcon
  rw [finishPollFlags_none (s := t.setResponse []) h.cfg h0 h1] at hdecide
  exact ⟨_, runs_add ht (runs_one ((step_finish h.wire h.job).trans hdecide)), { h.answered _ with },
    { h.sameInstance with }, { h.sameTarget rfl with }, h.sent⟩

/-- Settles O46: the frame is read from a target nothing has changed, then the flag is cleared, then the frame is the
answer. -/
theorem pollServesBuffer : Obligations.PollServesBuffer := by
  intro s es base flag id dlc hp hq hc hcon hbuf hd
  obtain ⟨n, hs, rfl, rfl⟩ : ∃ n, Serves s.cfg (s.reg 0x2C) n ∧ base = rxBase n ∧ flag = rxFlag s.cfg n := by
    obtain ⟨h0, rfl, rfl⟩ | ⟨h0, h1, rfl, rfl⟩ := hbuf
    · exact ⟨.rxb0, h0, rfl, rfl⟩
    · exact ⟨.rxb1, ⟨h0, h1⟩, rfl, rfl⟩
  obtain ⟨t, f, ht, h, hclear⟩ := run_poll_frame hp hq hcon hs hd
  obtain ⟨u, hu, hcleared⟩ := clearFlag_effect n hc
  obtain ⟨w, hw, k, -⟩ := h.issue_next hq rfl (clearFlagInstr_wf _ n) hclear hu
  have hlast : step w = .next (deliver (.ok (.frame ⟨id, regsAt s (rxBase n + 6) dlc⟩)) (w.setResponse [])) :=
    step_finish k.wire k.job
  have hcfg : u.cfg = s.cfg := (wholeEffect_sameOutside hu).1.cfg
  obtain ⟨hmode, hrequested, hmarks, hreg⟩ := hcleared.congr (k.sameTarget hcfg)
  have hcount : (if dlc = 0 then 6 else 9) + (3 + 1) = if dlc = 0 then 10 else 13 := by split <;> rfl
  exact ⟨_, hcount ▸ runs_add ht (runs_add hw (runs_one hlast)), { k.answered _ with }, { k.sameInstance with }, hmode,
    hrequested, hmarks, hreg, k.sent⟩

/-- Settles O47: the header that was read does not decode, and the error ends the command. -/
theorem pollBadDlcKeepsFlag : Obligations.PollBadDlcKeepsFlag := by
  intro s es base hp hq hcon hbuf hdlc
  obtain ⟨n, hs, rfl⟩ : ∃ n, Serves s.cfg (s.reg 0x2C) n ∧ base = rxBase n := by
    obtain ⟨h0, rfl⟩ | ⟨h0, h1, rfl⟩ := hbuf
    · exact ⟨.rxb0, h0, rfl⟩
    · exact ⟨.rxb1, ⟨h0, h1⟩, rfl⟩
  obtain ⟨t, ht, h, hheader⟩ := run_poll_header hp hq hcon hs
  have hcfg : (t.setResponse []).cfg = s.cfg := h.cfg
  have hbad := decodeHeader_above s.cfg (h := headerAt s (rxBase n)) hdlc
  simp only [finishHeader, hcfg, hbad] at hheader
  obtain ⟨hanswer, hinst⟩ := h.raised (e := .dlcRange (s.reg (rxBase n + 5) &&& 0x0F).toNat) rfl
  exact ⟨_, runs_add ht (runs_one ((step_finish h.wire h.job).trans hheader)), { hanswer with }, { hinst with },
    { h.sameTarget rfl with }, h.sent⟩

end Sys2Proof.Machine
end

section
/-! SUPPORT. The two power-ups at the host port (R340): O3, O4. -/

namespace Sys2Proof.Machine

open Sys2Proof.Safety

/-- An idle block's step is its answer to the next host event. -/
theorem step_event {e : HostEvent} {es : List HostEvent} {s : State} (hi : Idle s) (hh : s.host = e :: es) :
    step s = acceptEvent e (taking es s) := by
  obtain ⟨hj, hw⟩ := hi
  simp only [step, hw, advance_event hj hh, taking]

/-- The status register's image keeps its low five bits, under PowerUp's pattern (R342). -/
theorem powerUpByte_statAddr {c : Cfg} (hc : c.wf = true) :
    powerUpByte c c.statAddr = (Config.resetImage c.statAddr &&& 0x1F) ||| c.patPowerUp := by
  have hp : c.patPowerUp &&& modeMask = c.patPowerUp := and_modeMask_eq (wf_pattern hc .powerUp)
  rw [powerUpByte, if_pos rfl, hp, show ~~~modeMask = 0x1F by decide]

/-- The image outside the status register is the free value as it stands. -/
theorem powerUpByte_of_ne {c : Cfg} {a : Nat} (ha : a ≠ c.statAddr) : powerUpByte c a = Config.resetImage a :=
  if_neg ha

/-- Settles O3: `blockPowerUp` sets the block's fields, and taking the event changes only the host's input. -/
theorem blockPowerUpState : Obligations.BlockPowerUpState := by
  intro s es hi hh
  have hstep : step s = .next (blockPowerUp (taking es s)) := step_event hi hh
  have htarget : SameTarget s (blockPowerUp (taking es s)) := ⟨fun _ => rfl, rfl, rfl, rfl⟩
  exact ⟨_, hstep, ⟨rfl, rfl⟩, rfl, rfl, rfl, rfl, rfl, rfl, rfl, rfl, rfl, rfl, htarget, rfl, rfl, rfl, rfl, rfl⟩

/-- Settles O4: every register holds `powerUpByte`, which is the image but for the mode shown. -/
theorem targetPowerUpState : Obligations.TargetPowerUpState := by
  intro s es hi hc hh
  have hstep : step s = .next (targetPowerUp (taking es s)) := step_event hi hh
  have hreg (a : Nat) : (targetPowerUp (taking es s)).reg a = powerUpByte s.cfg a := reg_targetPowerUp _ a
  have hinst : SameInstance s (targetPowerUp (taking es s)) := ⟨rfl, rfl, rfl, rfl, rfl⟩
  exact ⟨_, hstep, hi, rfl, rfl, fun a ha => (hreg a).trans (powerUpByte_of_ne ha),
    (hreg _).trans (powerUpByte_statAddr hc), rfl, hinst, rfl, rfl, rfl, rfl, rfl, rfl, rfl, rfl⟩

end Sys2Proof.Machine
end
